-- ==== Sys2Proof/Word.lean ====
section
/-! DEFINITION. The bit-vector and level types of the block (spec/00_scope.md R6, R8). -/

namespace Sys2Proof

/-- `WORD_WIDTH` = 32, unsigned (R6, R8). -/
abbrev Word := BitVec 32

/-- A delay count: `DELAY_WIDTH` = 32 bits, unsigned, every value legal (R6, R22). -/
abbrev DelayCount := BitVec 32

/-- The level of a line or the value of one bit: high is `true` is 1, low is `false` is 0 (R51). -/
abbrev Level := Bool

end Sys2Proof
end

