-- ==== Sys2Proof/Config.lean ====
section
/-! DEFINITION. What is fixed when a link is built (spec/00_scope.md R6), and the free values. -/

namespace Sys2Proof.Config

/-- Least legal tick count, `MIN_TICKS` (R6). -/
def minTicks : Nat := 1

/-- Greatest legal tick count, `MAX_TICKS` (R6). -/
def maxTicks : Nat := 32

/-- The configuration of one link: what is fixed when it is built, injected per link (10_state.md R24, R39;
43_timing.md R158). Both parameters are OPEN in R6; they are fields of the link's value, so a statement about every
state is a statement about every value of them. DESIGN CHOICE, safe (log entries 3 and 15). -/
structure Link where
  /-- `FIXED_CLK_WIDTH`. -/
  fixedClkWidth : Bool
  /-- `DELAY_UNIT_CYCLES`, the length of one busy-wait unit in `clk` cycles: no step reads it (43_timing.md R151). -/
  delayUnitCycles : Nat
deriving DecidableEq, Repr

/-- The answer of the `k`-th sample that the target's list in the state does not determine: a draw
under no law (00_scope.md R13, 10_state.md R37). It is keyed by the counter alone, not by the link: two links, or two
runs, that have drawn equally often get the same free answer, although the spec relates their samples in no way.
DESIGN CHOICE: safe for a statement about one link, unsafe for one that compares the free answers of two
(log entries 2 and 19). -/
opaque freeSample : Nat → Level

/-- The `DELAY_UNIT_CYCLES` of the link of `State.reset`, a free value; every other link has its own (R6, 43_timing.md
R151, R158). DESIGN CHOICE, safe (log entry 15). -/
opaque delayUnitCycles : Nat

end Sys2Proof.Config
end

