-- ==== Sys2Proof/Syntax.lean ====
section
/-! DEFINITION. The commands: the raw form the host puts on the ports (spec/30_encoding.md R70, R71) and the
decoded form, one constructor per row of spec/opcode_table.json. -/

namespace Sys2Proof

/-- The seven delay counts of the timing profile, in the order of their index (10_state.md R22). -/
structure Profile where
  turnaround   : DelayCount
  seqIn        : DelayCount
  seqInParLoop : DelayCount
  seqInParEnd  : DelayCount
  seqOut       : DelayCount
  seqOutParLoop : DelayCount
  seqOutParEnd : DelayCount
deriving DecidableEq, Repr

/-- What the host presents: the 9-bit command word `cmd` and the operand ports `cmd_wdata` and
`cmd_profile` (30_encoding.md R70, R71). -/
structure Command where
  word    : BitVec 9
  wdata   : Word
  profile : BitVec 224
deriving DecidableEq, Repr

/-- The six host commands (30_encoding.md R72). `ticks` is the `TICKS` field as it stands in the word,
so an out-of-contract count can be written down and refused by name (R74, R78). -/
inductive Instr where
  | read (ticks : BitVec 6)
  | readWithParity (ticks : BitVec 6)
  | write (word : Word) (ticks : BitVec 6)
  | writeWithParity (word : Word) (ticks : BitVec 6)
  | init
  | configureTiming (profile : Profile)
deriving DecidableEq, Repr

end Sys2Proof
end

