-- ==== Sys2Proof/WellFormed.lean ====
section
/-! DEFINITION. Well-formed commands: the caller contract on operands (spec/30_encoding.md R74). -/

namespace Sys2Proof

/-- A legal tick count: 1 to 32 (30_encoding.md R74, R78). -/
def legalTicks (t : BitVec 6) : Bool :=
  decide (Config.minTicks ≤ t.toNat) && decide (t.toNat ≤ Config.maxTicks)

/-- A command is well formed when its tick count, if it has one, is legal; every word and every profile
is legal (30_encoding.md R73, R74; 10_state.md R22). -/
def Instr.wellFormed : Instr → Bool
  | .read t => legalTicks t
  | .readWithParity t => legalTicks t
  | .write _ t => legalTicks t
  | .writeWithParity _ t => legalTicks t
  | .init => true
  | .configureTiming _ => true

end Sys2Proof
end

