-- ==== Sys2Proof/Decode.lean ====
section
/-! DEFINITION. From the command ports to a command and back (spec/30_encoding.md R71 to R80). -/

namespace Sys2Proof

/-- Why a command word names no command. Both are refusals of 00_scope.md R14. -/
inductive Reject where
  /-- `OP` is `110` or `111` (30_encoding.md R79). -/
  | reservedOpcode
  /-- `OP` is `100` or `101` and `TICKS` is not 0 (30_encoding.md R80). -/
  | reservedField
deriving DecidableEq, Repr

/-- `cmd[8:6]` (R71). -/
def opField (w : BitVec 9) : BitVec 3 := w.extractLsb' 6 3

/-- `cmd[5:0]` (R71). -/
def ticksField (w : BitVec 9) : BitVec 6 := w.extractLsb' 0 6

/-- Count `k` of `cmd_profile`, at `[32k+31 : 32k]` (R75). -/
def profileCount (p : BitVec 224) (k : Nat) : DelayCount := p.extractLsb' (32 * k) 32

/-- The seven counts of `cmd_profile` under their names (R75). -/
def profileOfPort (p : BitVec 224) : Profile where
  turnaround := profileCount p 0
  seqIn := profileCount p 1
  seqInParLoop := profileCount p 2
  seqInParEnd := profileCount p 3
  seqOut := profileCount p 4
  seqOutParLoop := profileCount p 5
  seqOutParEnd := profileCount p 6

/-- The seven counts laid out on `cmd_profile`, count 0 lowest (R75). -/
def profileToPort (p : Profile) : BitVec 224 :=
  p.seqOutParEnd ++ p.seqOutParLoop ++ p.seqOut ++ p.seqInParEnd ++ p.seqInParLoop ++ p.seqIn ++
    p.turnaround

/-- The command a presented word and its operand ports stand for (R72, R73, R75), or the reason it stands
for none, in the order of 60_exceptions.md R204 (1), (2). -/
def decode (c : Command) : Except Reject Instr :=
  let t := ticksField c.word
  match (opField c.word).toNat with
  | 0 => .ok (.read t)
  | 1 => .ok (.readWithParity t)
  | 2 => .ok (.write c.wdata t)
  | 3 => .ok (.writeWithParity c.wdata t)
  | 4 => if t = 0 then .ok .init else .error .reservedField
  | 5 => if t = 0 then .ok (.configureTiming (profileOfPort c.profile)) else .error .reservedField
  | _ => .error .reservedOpcode

/-- The value of `OP` for each command (R72). -/
def opCode : Instr → BitVec 3
  | .read _ => 0b000#3
  | .readWithParity _ => 0b001#3
  | .write _ _ => 0b010#3
  | .writeWithParity _ _ => 0b011#3
  | .init => 0b100#3
  | .configureTiming _ => 0b101#3

/-- The value of `TICKS` for each command: 0 where the command takes no tick count (R74, R80). -/
def ticksOf : Instr → BitVec 6
  | .read t => t
  | .readWithParity t => t
  | .write _ t => t
  | .writeWithParity _ t => t
  | .init => 0#6
  | .configureTiming _ => 0#6

/-- What the host puts on the ports for a command; a port the command ignores (R73) is given 0. -/
def encode (i : Instr) : Command where
  word := opCode i ++ ticksOf i
  wdata := match i with
    | .write w _ => w
    | .writeWithParity w _ => w
    | _ => 0#32
  profile := match i with
    | .configureTiming p => profileToPort p
    | _ => 0#224

/-- `match` and `mask` of the command's row in spec/opcode_table.json: a word `c` selects the row when
`c and mask = match`. -/
structure Row where
  pattern : BitVec 9
  mask    : BitVec 9
deriving DecidableEq, Repr

/-- The six rows of spec/opcode_table.json, by command. -/
def rowOf : Instr → Row
  | .read _ => ⟨0x000#9, 0x1C0#9⟩
  | .readWithParity _ => ⟨0x040#9, 0x1C0#9⟩
  | .write _ _ => ⟨0x080#9, 0x1C0#9⟩
  | .writeWithParity _ _ => ⟨0x0C0#9, 0x1C0#9⟩
  | .init => ⟨0x100#9, 0x1FF#9⟩
  | .configureTiming _ => ⟨0x140#9, 0x1FF#9⟩

/-- The opcode table as a list, in its own order. -/
def opcodeTable : List Row :=
  [rowOf (.read 0), rowOf (.readWithParity 0), rowOf (.write 0 0), rowOf (.writeWithParity 0 0),
   rowOf .init, rowOf (.configureTiming ⟨0, 0, 0, 0, 0, 0, 0⟩)]

/-- The word selects the row. -/
def Row.selects (r : Row) (w : BitVec 9) : Bool := w &&& r.mask == r.pattern

/-- The presented command whose bits, numbered as spec/opcode_table.json numbers them, are the low `nbits`
bits of `w`: `cmd[8:0]` is the first and only word, and the operand ports, to which the table gives no
bits, are 0. The `cmd` port has nine lines, so a bit above bit 8 has nowhere to stand. Log entry 14. -/
def tableCommand (nbits w : Nat) : Command where
  word := BitVec.ofNat 9 (w % 2 ^ nbits)
  wdata := 0#32
  profile := 0#224

/-- What the decoder reads from the instruction whose bits are `w`. -/
def decodeTableWord (nbits w : Nat) : Option Instr :=
  match decode (tableCommand nbits w) with
  | .ok i => some i
  | .error _ => none

end Sys2Proof
end

