-- ==== Sys2Proof/Machine/State.lean ====
section
/-! DEFINITION. The complete state of one link (spec/10_state.md R20), the inputs and observations a run needs
(00_scope.md R12, R16), the reasons a step can stop, and reset (70_reset_and_hazards.md R220). -/

namespace Sys2Proof.Machine

/-- The recorded link direction `DIR` (10_state.md R21). -/
inductive Direction where
  | float | drive
deriving DecidableEq, Repr

/-- The mode of the data pad, `DIO_OE` (10_state.md R35). -/
inductive PinMode where
  | input | output
deriving DecidableEq, Repr

/-- An event: one call of a platform primitive or of the delay engine (00_scope.md R10). -/
inductive Event where
  /-- `C1`, `C0`: `PinWrite(CLK, l)`. -/
  | clk (l : Level)
  /-- `D1`, `D0`: `PinWrite(DIO, v)`. -/
  | dio (v : Level)
  /-- `MI`, `MO`: `PinMode(DIO, m)`. -/
  | mode (m : PinMode)
  /-- `S1`, `S0`: a `PinRead(DIO)` and its answer. -/
  | sample (v : Level)
  /-- `Wn`: `Wait(n)`. -/
  | wait (n : DelayCount)
deriving DecidableEq, Repr

/-- A dispatch slot: empty, or populated with the bit-banged operation of its own index (10_state.md R23). -/
inductive Slot where
  | empty | populated
deriving DecidableEq, Repr

/-- `DISPATCH[0..3]`: read, readWithParity, write, writeWithParity (10_state.md R23). -/
structure DispatchTable where
  slot0 : Slot
  slot1 : Slot
  slot2 : Slot
  slot3 : Slot
deriving DecidableEq, Repr

/-- `PHASE`: the position of the sequencer inside the current command (10_state.md R27), under the names of
45_microsequencer.md R183 to R186. -/
inductive Phase where
  | idle
  | taCheck | taMi | taSet | taSet2 | taWait | taClr | taMo
  | rdSmp | rdSet | rdWait | rdClr
  | rpClr | rpSmp | rpSet | rpWait | rpPclr | rpPsmp | rpPset | rpPwait | rpPend
  | wrPre | wrClr | wrDrv | wrSet | wrWait | wrEnd
  | wpPre | wpSet | wpDrv | wpWait | wpClr | wpPdrv | wpPclr | wpPwait1 | wpPset | wpPset2 | wpPwait2 | wpPend
deriving DecidableEq, Repr

/-- What the response ports show when `rsp_valid` is raised (30_encoding.md R77). -/
structure Response where
  rdata  : Word
  perr   : Bool
  status : BitVec 1
deriving DecidableEq, Repr

/-- One link. The fields down to `status` are the complete state of 10_state.md R20; `link` is its
configuration (R24, R39); the last five are the inputs the step reads and the observations it leaves
(00_scope.md R12, R13, R16; log entries 2, 7, 8). -/
structure State where
  /-- `DIR` (R21). -/
  dir : Direction
  /-- The seven `T_*` registers (R22); they exist only on a variable clock width link (log entry 13). -/
  timing : Profile
  /-- `DISPATCH` (R23). -/
  dispatch : DispatchTable
  /-- `CLK_O` (R33). -/
  clkO : Level
  /-- `DIO_O` (R34). -/
  dioO : Level
  /-- `DIO_OE` (R35). -/
  dioOe : PinMode
  /-- `OP` (R25). -/
  op : BitVec 3
  /-- `TICKS` (R25). -/
  ticks : BitVec 6
  /-- `WDATA` (R25). -/
  wdata : Word
  /-- `SHIFT` (R26). -/
  shift : Word
  /-- `BITIDX` (R26). -/
  bitidx : BitVec 6
  /-- `PAR` (R26). -/
  par : Bool
  /-- `SMP` (R26). -/
  smp : Bool
  /-- `PHASE` (R27). -/
  phase : Phase
  /-- `RDATA` (R28). -/
  rdata : Word
  /-- `PERR` (R29). -/
  perr : Bool
  /-- `STATUS` (R30). -/
  status : BitVec 1
  /-- `FIXED_CLK_WIDTH` and `DELAY_UNIT_CYCLES` of this link (R24, R39; 43_timing.md R158). -/
  link : Config.Link
  /-- The commands the host will present, in order (00_scope.md R16). -/
  host : List Command
  /-- The answers the target will give to the next samples, in order (00_scope.md R13). -/
  target : List Level
  /-- How many free answers have been drawn: the model's own field (log entry 2). -/
  draws : Nat
  /-- The full trace so far, oldest event first (00_scope.md R10, R16). -/
  trace : List Event
  /-- The responses given so far, oldest first (30_encoding.md R77). -/
  responses : List Response
deriving DecidableEq, Repr

/-- A reason for a fault. THERE IS NONE: the block raises no exception, has no trap and no faulting outcome
(60_exceptions.md R200, R205; 00_scope.md R14), so no step can answer a fault. Log entry 11. -/
inductive Fault where
deriving DecidableEq, Repr

/-- Why a command is refused: the closed list of 00_scope.md R14. A refusal ends the run and says nothing of
the hardware, so each is safe (log entry 12). -/
inductive Refusal where
  /-- An arm of `exec` whose instruction has no meaning yet; raised by no arm of this model. Safe. -/
  | notModelled (mnemonic : String)
  /-- `OP` is `110` or `111` (30_encoding.md R79). Raised by `step` on a word that decodes to no command. Safe. -/
  | reservedOpcode
  /-- `init` or `configureTiming` with a nonzero `TICKS` field (R80). Raised by `step` likewise. Safe. -/
  | reservedField
  /-- `configureTiming` on a fixed clock width link (43_timing.md R156). Raised by its meaning. Safe. -/
  | timingAbsent
  /-- A transport command whose slot is empty (44_dispatch_init.md R168). Raised by the four transport
  meanings. Safe. -/
  | notInitialised
  /-- A transport command with a tick count of 0 or above 32 (30_encoding.md R78). Raised by the four
  transport meanings. Safe. -/
  | ticksOutOfRange
deriving DecidableEq, Repr

/-- Every value that reset leaves open: the OPEN parameters of 00_scope.md R6 and the registers 10_state.md
R41 calls unspecified. -/
structure ResetValues where
  /-- The link's configuration: its variant and the length of its delay unit. -/
  link : Config.Link
  /-- `TIMING_RESET`. -/
  timing : Profile
  /-- `PIN_RESET`: the levels and the mode of the three latches. -/
  clkO : Level
  dioO : Level
  dioOe : PinMode
  /-- The operand, working and result registers. -/
  op : BitVec 3
  ticks : BitVec 6
  wdata : Word
  shift : Word
  bitidx : BitVec 6
  par : Bool
  smp : Bool
  rdata : Word
  perr : Bool
  status : BitVec 1
deriving DecidableEq, Repr

/-- The state after reset for given open values (70_reset_and_hazards.md R220, 10_state.md R41): idle,
direction `Float`, every slot empty; a new run, so nothing has been observed yet (00_scope.md R16). -/
def State.resetOf (v : ResetValues) : State where
  dir := .float
  timing := v.timing
  dispatch := ⟨.empty, .empty, .empty, .empty⟩
  clkO := v.clkO
  dioO := v.dioO
  dioOe := v.dioOe
  op := v.op
  ticks := v.ticks
  wdata := v.wdata
  shift := v.shift
  bitidx := v.bitidx
  par := v.par
  smp := v.smp
  phase := .idle
  rdata := v.rdata
  perr := v.perr
  status := v.status
  link := v.link
  host := []
  target := []
  draws := 0
  trace := []
  responses := []

/-- The values the model names for `State.reset`. DESIGN CHOICE, unsafe (log entries 3 to 6): a variable clock
width link, its delay unit left free (log entry 15), the launch premise's pins (70_reset_and_hazards.md R224) with `DIO_O` low, and zeros. No
statement about the machine rests on them: statements take `State.resetOf` for every value, or every state. -/
def ResetValues.named : ResetValues where
  link := ⟨false, Config.delayUnitCycles⟩
  timing := ⟨0, 0, 0, 0, 0, 0, 0⟩
  clkO := false
  dioO := false
  dioOe := .input
  op := 0
  ticks := 0
  wdata := 0
  shift := 0
  bitidx := 0
  par := false
  smp := false
  rdata := 0
  perr := false
  status := 0

/-- The machine right after reset, for the named open values. -/
def State.reset : State := State.resetOf ResetValues.named

end Sys2Proof.Machine
end

