-- ==== Sys2Proof/Machine/Operands.lean ====
section
/-! DEFINITION. Operand forms and bit-field helpers (spec/00_scope.md R8, R9; 30_encoding.md R73, R74), and the
numeric values of symbols (10_state.md R21, R35; 20_memory.md R51). -/

namespace Sys2Proof.Machine

/-- A tick count inside the contract, 1 to 32 (30_encoding.md R74, R78). -/
def ticksInRange (t : BitVec 6) : Bool := decide (1 ≤ t.toNat) && decide (t.toNat ≤ 32)

/-- `mask(t)`: the word with bits `t-1..0` set, `mask(32) = 0xFFFFFFFF` (R9). -/
def mask (t : Nat) : Word := BitVec.ofNat 32 (2 ^ t - 1)

/-- `r or (1 << i)` on a 32-bit word (R9); an index of 32 or more names no bit and sets none. -/
def setBit (r : Word) (i : Nat) : Word := r ||| (1#32 <<< i)

/-- `SHIFT >> 1`, zero entering at bit 31 (R9; 10_state.md R26). -/
def shiftRight1 (w : Word) : Word := w >>> 1

/-- Slot `k` of the dispatch table (10_state.md R23). -/
def DispatchTable.slot (d : DispatchTable) (k : BitVec 2) : Slot :=
  if k = 0 then d.slot0 else if k = 1 then d.slot1 else if k = 2 then d.slot2 else d.slot3

/-- All four slots populated: what `init` leaves (44_dispatch_init.md R166). -/
def DispatchTable.full : DispatchTable := ⟨.populated, .populated, .populated, .populated⟩

/-- All four slots empty: what reset leaves (10_state.md R41). -/
def DispatchTable.none : DispatchTable := ⟨.empty, .empty, .empty, .empty⟩

/-- `Float = 0`, `Drive = 1` (10_state.md R21). -/
def Direction.bit : Direction → BitVec 1
  | .float => 0
  | .drive => 1

/-- `input = 0`, `output = 1` (10_state.md R35). -/
def PinMode.bit : PinMode → BitVec 1
  | .input => 0
  | .output => 1

/-- The pad mode that a recorded direction means (10_state.md R38): `Float` is input, `Drive` is output. -/
def Direction.mode : Direction → PinMode
  | .float => .input
  | .drive => .output

/-- The two line names, the "addresses" of the pin space (20_memory.md R50, R51). -/
inductive Line where
  | clk | dio
deriving DecidableEq, Repr

/-- `CLK = 0`, `DIO = 1` (20_memory.md R51). -/
def Line.number : Line → BitVec 1
  | .clk => 0
  | .dio => 1

end Sys2Proof.Machine
end

