-- ==== Sys2Proof/Machine/Flags.lean ====
section
/-! DEFINITION. The parity computations: the block's only flag (spec/10_state.md R29; 41_seq_in.md R114, R115;
42_seq_out.md R132). -/

namespace Sys2Proof.Machine

/-- `popcount(w)`: the number of 1 bits, 0 to 32 (00_scope.md R9). -/
def popcount (w : Word) : Nat := (List.range 32).countP fun i => w.getLsbD i

/-- `popcount(w) mod 2` as a bit. -/
def oddOnes (w : Word) : Bool := popcount w % 2 == 1

/-- The parity bit of `writeWithParity`: the count of ones among the `t` bits transmitted, modulo 2
(42_seq_out.md R132; 90_conflicts.md C1). -/
def writeParity (w : Word) (t : Nat) : Bool := oddOnes (w &&& mask t)

/-- `PERR`: expected parity of the assembled word xor the sampled parity bit (41_seq_in.md R114). -/
def parityMismatch (r : Word) (p : Bool) : Bool := oddOnes r ^^ p

end Sys2Proof.Machine
end

