-- ==== Sys2Proof/Machine/Ops.lean ====
section
/-! DEFINITION. The named operations over the state: the four primitives (spec/00_scope.md R9), acceptance and its
checks (60_exceptions.md R204), completion (30_encoding.md R77), and reset (70_reset_and_hazards.md R220).
THERE IS NO TAKING OF AN EXCEPTION AND NO RETURN FROM ONE: the block has no trap entry, saves no state, changes
no mode and fetches no vector (60_exceptions.md R200, R205). -/

namespace Sys2Proof.Machine

/-- Appends one event to the full trace (00_scope.md R10). -/
def emit (e : Event) (s : State) : State := { s with trace := s.trace ++ [e] }

/-- `PinWrite(CLK, l)` (20_memory.md R52). -/
def pinWriteClk (l : Level) (s : State) : State := emit (.clk l) { s with clkO := l }

/-- `PinWrite(DIO, v)` (20_memory.md R52). -/
def pinWriteDio (v : Level) (s : State) : State := emit (.dio v) { s with dioO := v }

/-- `PinMode(DIO, m)` (20_memory.md R52). -/
def pinMode (m : PinMode) (s : State) : State := emit (.mode m) { s with dioOe := m }

/-- `swdio_i` at the next sample: the target's next answer, or a free value when the target's list says no
more (00_scope.md R13; 10_state.md R36, R37). -/
def answer (s : State) : Level :=
  match s.target with
  | v :: _ => v
  | [] => Config.freeSample s.draws

/-- The answer has been given: the next sample takes the next one. -/
def takeAnswer (s : State) : State :=
  match s.target with
  | _ :: rest => { s with target := rest }
  | [] => { s with draws := s.draws + 1 }

/-- `PinRead(DIO)`: one event carrying the answer, no change of any register or latch (20_memory.md R52). -/
def pinRead (s : State) : State := emit (.sample (answer s)) (takeAnswer s)

/-- A data sample: read `swdio_i` into `SMP` (45_microsequencer.md R182). -/
def sampleToSmp (s : State) : State := { pinRead s with smp := answer s }

/-- The parity sample: read `swdio_i` into `PAR` (45_microsequencer.md R182). -/
def sampleToPar (s : State) : State := { pinRead s with par := answer s }

/-- `Wait(n)`: an event on a variable clock width link, nothing at all on a fixed one (43_timing.md R150). -/
def wait (n : DelayCount) (s : State) : State :=
  if s.link.fixedClkWidth then s else emit (.wait n) s

/-- A clock raise that is "issued twice" on a fixed clock width link (00_scope.md R7). -/
def raiseClkTwiceIfFixed (s : State) : State :=
  if s.link.fixedClkWidth then pinWriteClk true (pinWriteClk true s) else pinWriteClk true s

/-- `if s == 1 then r <- r or (1 << i)`: the accumulate step, which only sets bits (41_seq_in.md R110, R112). -/
def accumulate (s : State) : State :=
  if s.smp then { s with shift := setBit s.shift s.bitidx.toNat } else s

/-- `SHIFT <- SHIFT >> 1` (10_state.md R26). -/
def shiftOut (s : State) : State := { s with shift := shiftRight1 s.shift }

/-- `BITIDX <- BITIDX + 1` (10_state.md R26). -/
def nextBit (s : State) : State := { s with bitidx := s.bitidx + 1 }

/-- `SHIFT <- w`, `BITIDX <- 0`: the start of a bit loop (10_state.md R26). -/
def startLoop (w : Word) (s : State) : State := { s with shift := w, bitidx := 0 }

/-- `f` repeated `n` times: a counted loop of exactly `n` iterations (44_dispatch_init.md R165). -/
def times (f : State → State) : Nat → State → State
  | 0, s => s
  | n + 1, s => times f n (f s)

/-- Loads `OP` and `TICKS` at acceptance (30_encoding.md R76). -/
def loadOperands (op : BitVec 3) (ticks : BitVec 6) (s : State) : State :=
  { s with op := op, ticks := ticks }

/-- Loads `WDATA` at acceptance of a write command (30_encoding.md R73, R76). -/
def loadWord (w : Word) (s : State) : State := { s with wdata := w }

/-- What the response ports show now (30_encoding.md R77). -/
def response (s : State) : Response := ⟨s.rdata, s.perr, s.status⟩

/-- A command completes: `PHASE` is idle again and `rsp_valid` is raised once (30_encoding.md R77;
45_microsequencer.md R180). -/
def complete (s : State) : State :=
  { s with phase := .idle, responses := s.responses ++ [response s] }

/-- Acceptance of a transport command through dispatch slot `k`, with the checks of 60_exceptions.md R204 in
their order: (4) an empty slot, (5) the tick range; then the slot's operation is carried out. -/
def admitTransport (k : BitVec 2) (t : BitVec 6) (run : State → State) (s : State) :
    Host.Outcome State Fault Refusal :=
  if s.dispatch.slot k = .empty then .refused .notInitialised
  else if ticksInRange t then .next (run s)
  else .refused .ticksOutOfRange

/-- Acceptance of `configureTiming`, with check (3) of 60_exceptions.md R204. -/
def admitTiming (run : State → State) (s : State) : Host.Outcome State Fault Refusal :=
  if s.link.fixedClkWidth then .refused .timingAbsent else .next (run s)

/-- The refusal of a word that decodes to no command: checks (1) and (2) of 60_exceptions.md R204. -/
def refusalOf : Reject → Refusal
  | .reservedOpcode => .reservedOpcode
  | .reservedField => .reservedField

/-- The host presents `c` and nothing else stands in the way: the block is idle and `c` is the next command of
the host's list (30_encoding.md R76). -/
def present (c : Command) (s : State) : State := { s with phase := .idle, host := c :: s.host }

/-- `rst_n` low, at any time: the state of 70_reset_and_hazards.md R220 and the start of a new run (R221). The link
is built already, so its configuration stays: DEDUCED from 10_state.md R24 and R39, R221 being silent (log entry
18). `v` gives the other open values. The host's further commands and the target are not the block's and stay as
they are (log entry 18). -/
def hardReset (v : ResetValues) (s : State) : State :=
  { State.resetOf v with link := s.link, host := s.host, target := s.target, draws := s.draws }

end Sys2Proof.Machine
end

