-- ==== Sys2Proof/Machine/Init.lean ====
section
/-! DEFINITION. Dispatch and initialisation: init (spec/44_dispatch_init.md). -/

namespace Sys2Proof.Machine

/-- `init`: populates the four slots, records `Float`, writes `STATUS`; no event, no pin (44_dispatch_init.md R166,
R170). -/
def runInit (s : State) : State :=
  complete { loadOperands 0b100#3 0#6 s with
    dispatch := DispatchTable.full, dir := .float, status := 0#1 }

/-- The meaning of `init`: always succeeds (44_dispatch_init.md R166). -/
def execInit (s : State) : Host.Outcome State Fault Refusal := .next (runInit s)

end Sys2Proof.Machine
end

