-- ==== Sys2Proof/Machine/Turnaround.lean ====
section
/-! DEFINITION. The turnaround controller (spec/40_turnaround.md). Internal: it has no opcode (30_encoding.md R82). -/

namespace Sys2Proof.Machine

/-- Exactly one clock pulse, its set phase doubled on a fixed clock width link and the turnaround delay applied
once, between set and clear (40_turnaround.md R92). -/
def turnaroundPulse (s : State) : State :=
  pinWriteClk false (wait s.timing.turnaround (raiseClkTwiceIfFixed s))

/-- `turnaround(d)` (40_turnaround.md R92): silent when `d` is the recorded direction; else towards `Float` the
pad is released before the pulse, towards `Drive` it is taken after it. -/
def turnaround (d : Direction) (s : State) : State :=
  if d = s.dir then s
  else match d with
    | .float => { turnaroundPulse (pinMode .input s) with dir := .float }
    | .drive => { pinMode .output (turnaroundPulse s) with dir := .drive }

end Sys2Proof.Machine
end

