-- ==== Sys2Proof/Machine/SeqIn.lean ====
section
/-! DEFINITION. The bit-serial in engine: read, readWithParity (spec/41_seq_in.md). -/

namespace Sys2Proof.Machine

/-- One tick of `read`: sample, raise, accumulate, wait, lower (41_seq_in.md R110). -/
def readTick (s : State) : State :=
  let s := sampleToSmp s
  let s := pinWriteClk true s
  let s := accumulate s
  let s := wait s.timing.seqIn s
  let s := pinWriteClk false s
  nextBit s

/-- `read t` (41_seq_in.md R110). -/
def runRead (t : BitVec 6) (s : State) : State :=
  let s := loadOperands 0b000#3 t s
  let s := turnaround .float s
  let s := startLoop 0#32 s
  let s := times readTick t.toNat s
  complete { s with rdata := s.shift }

/-- The meaning of `read` (41_seq_in.md R110): slot 0. -/
def execRead (t : BitVec 6) (s : State) : Host.Outcome State Fault Refusal :=
  admitTransport 0#2 t (runRead t) s

/-- One data tick of `readWithParity`: lower, sample, raise, accumulate, wait (41_seq_in.md R114). The event order
differs from `readTick` and is kept so (R118). -/
def readParTick (s : State) : State :=
  let s := pinWriteClk false s
  let s := sampleToSmp s
  let s := pinWriteClk true s
  let s := accumulate s
  let s := nextBit s
  wait s.timing.seqInParLoop s

/-- The parity cycle of `readWithParity`: lower, sample, raise, wait, lower (41_seq_in.md R114). -/
def readParEnd (s : State) : State :=
  let s := pinWriteClk false s
  let s := sampleToPar s
  let s := pinWriteClk true s
  let s := wait s.timing.seqInParEnd s
  pinWriteClk false s

/-- `readWithParity t` (41_seq_in.md R114). -/
def runReadWithParity (t : BitVec 6) (s : State) : State :=
  let s := loadOperands 0b001#3 t s
  let s := turnaround .float s
  let s := startLoop 0#32 s
  let s := times readParTick t.toNat s
  let s := readParEnd s
  complete { s with rdata := s.shift, perr := parityMismatch s.shift s.par }

/-- The meaning of `readWithParity` (41_seq_in.md R114): slot 1. -/
def execReadWithParity (t : BitVec 6) (s : State) : Host.Outcome State Fault Refusal :=
  admitTransport 1#2 t (runReadWithParity t) s

end Sys2Proof.Machine
end

