-- ==== Sys2Proof/Machine/SeqOut.lean ====
section
/-! DEFINITION. The bit-serial out engine: write, writeWithParity (spec/42_seq_out.md). -/

namespace Sys2Proof.Machine

/-- Drive `SHIFT[0]` onto the data line. -/
def driveBit (s : State) : State := pinWriteDio (s.shift.getLsbD 0) s

/-- One tick of `write`: lower, drive bit `i`, shift, raise, wait (42_seq_out.md R130; the value driven follows
90_conflicts.md C2). -/
def writeTick (s : State) : State :=
  let s := pinWriteClk false s
  let s := driveBit s
  let s := nextBit (shiftOut s)
  let s := pinWriteClk true s
  wait s.timing.seqOut s

/-- `write w, t` (42_seq_out.md R130). -/
def runWrite (w : Word) (t : BitVec 6) (s : State) : State :=
  let s := loadWord w (loadOperands 0b010#3 t s)
  let s := turnaround .drive s
  let s := startLoop w s
  let s := driveBit s
  let s := times writeTick t.toNat s
  complete (pinWriteClk false s)

/-- The meaning of `write` (42_seq_out.md R130): slot 2. -/
def execWrite (w : Word) (t : BitVec 6) (s : State) : Host.Outcome State Fault Refusal :=
  admitTransport 2#2 t (runWrite w t) s

/-- One data tick of `writeWithParity`: raise (tick `i` carries bit `i`), shift, drive the next bit, wait, lower
(42_seq_out.md R134, R136, R139). -/
def writeParTick (s : State) : State :=
  let s := pinWriteClk true s
  let s := nextBit (shiftOut s)
  let s := driveBit s
  let s := wait s.timing.seqOutParLoop s
  pinWriteClk false s

/-- The parity cycle of `writeWithParity`: drive the parity bit, lower, wait, raise (twice on a fixed clock width
link), wait, lower (42_seq_out.md R134). -/
def writeParEnd (s : State) : State :=
  let s := pinWriteDio s.par s
  let s := pinWriteClk false s
  let s := wait s.timing.seqOutParLoop s
  let s := raiseClkTwiceIfFixed s
  let s := wait s.timing.seqOutParEnd s
  pinWriteClk false s

/-- `writeWithParity w, t` (42_seq_out.md R134): the parity is computed before the first event (R132). -/
def runWriteWithParity (w : Word) (t : BitVec 6) (s : State) : State :=
  let s := loadWord w (loadOperands 0b011#3 t s)
  let s := { s with par := writeParity w t.toNat }
  let s := turnaround .drive s
  let s := startLoop w s
  let s := driveBit s
  let s := times writeParTick t.toNat s
  complete (writeParEnd s)

/-- The meaning of `writeWithParity` (42_seq_out.md R134): slot 3. -/
def execWriteWithParity (w : Word) (t : BitVec 6) (s : State) : Host.Outcome State Fault Refusal :=
  admitTransport 3#2 t (runWriteWithParity w t) s

end Sys2Proof.Machine
end

