-- ==== Sys2Proof/Machine/Timing.lean ====
section
/-! DEFINITION. The timing-delay engine: configureTiming (spec/43_timing.md R154) and the down-counter behind a wait
(R151). The event of a wait is `wait` in Machine/Ops.lean (R150). -/

namespace Sys2Proof.Machine

/-- `configureTiming p`: all seven counts in one indivisible command, no event (43_timing.md R154). -/
def runConfigureTiming (p : Profile) (s : State) : State :=
  complete { loadOperands 0b101#3 0#6 s with timing := p }

/-- The meaning of `configureTiming` (43_timing.md R154, R156). -/
def execConfigureTiming (p : Profile) (s : State) : Host.Outcome State Fault Refusal :=
  admitTiming (runConfigureTiming p) s

/-- The delay engine: a down-counter of units and the `clk` cycles spent in the current unit (43_timing.md R151;
60_exceptions.md R209). It stands beside the state of the machine, which is at the event level
(10_state.md R20, 00_scope.md R15). -/
structure DelayEngine where
  count : DelayCount
  spent : Nat
deriving DecidableEq, Repr

/-- Loaded with the count of a timing register at a wait (43_timing.md R151). -/
def delayLoad (n : DelayCount) : DelayEngine := ⟨n, 0⟩

/-- The sequencer may perform the next event: the count has reached zero. -/
def delayDone (e : DelayEngine) : Bool := e.count == 0#32

/-- One `clk` cycle of the engine of link `l`: the count is decremented once per `DELAY_UNIT_CYCLES` cycles and stops at
zero (43_timing.md R151, R158). -/
def delayTick (l : Config.Link) (e : DelayEngine) : DelayEngine :=
  if delayDone e then e
  else if e.spent + 1 < l.delayUnitCycles then { e with spent := e.spent + 1 }
  else ⟨e.count - 1, 0⟩

/-- `k` cycles of `clk`. -/
def delayTicks (l : Config.Link) : Nat → DelayEngine → DelayEngine
  | 0, e => e
  | k + 1, e => delayTicks l k (delayTick l e)

/-- The `clk` cycles the waits of a trace of link `l` last: the duration of a command is the sum of its waits
(70_reset_and_hazards.md R231), each of `n * DELAY_UNIT_CYCLES` cycles (43_timing.md R150). -/
def waitCycles (l : Config.Link) (es : List Event) : Nat :=
  (es.map fun e => match e with
    | .wait n => n.toNat * l.delayUnitCycles
    | _ => 0).sum

end Sys2Proof.Machine
end

