-- ==== Sys2Proof/Machine/Dispatch.lean ====
section
/-! DEFINITION. One arm per command (spec/30_encoding.md R72), one meaning each. -/

namespace Sys2Proof.Machine

def exec (i : Instr) (s : State) : Host.Outcome State Fault Refusal :=
  match i with
  | .read t => Sys2Proof.Machine.execRead t s
  | .readWithParity t => Sys2Proof.Machine.execReadWithParity t s
  | .write w t => Sys2Proof.Machine.execWrite w t s
  | .writeWithParity w t => Sys2Proof.Machine.execWriteWithParity w t s
  | .init => Sys2Proof.Machine.execInit s
  | .configureTiming p => Sys2Proof.Machine.execConfigureTiming p s

end Sys2Proof.Machine
end

