-- ==== Sys2Proof/Machine/Sequencer.lean ====
section
/-! DEFINITION. The clock-pulse sequencer as a small-step machine (spec/45_microsequencer.md): one event per step.
Where it and the operation rules differ, those rules govern; R187 says that they agree. -/

namespace Sys2Proof.Machine

/-- Go to phase `p`. -/
def goto (p : Phase) (s : State) : State := { s with phase := p }

/-- The direction the command in `OP` requests: `Float` for the readers, `Drive` for the writers (R183). -/
def requestedDir (op : BitVec 3) : Direction := if op.getLsbD 1 then .drive else .float

/-- The first own phase of the operation in `OP` (R184 to R186). Only the two slot bits are read: the turnaround
phases are entered with `OP[2] = 0` alone (log entry 10). -/
def firstPhase (op : BitVec 3) : Phase :=
  match op.getLsbD 1, op.getLsbD 0 with
  | false, false => .rdSmp
  | false, true => .rpClr
  | true, false => .wrPre
  | true, true => .wpPre

/-- `BITIDX < TICKS`: there is another tick. -/
def moreTicks (s : State) : Bool := decide (s.bitidx.toNat < s.ticks.toNat)

/-- Where `readWithParity` goes after a data tick (R185). -/
def afterReadParTick (s : State) : Phase := if moreTicks s then .rpClr else .rpPclr

/-- Where `write` goes after a tick (R186). -/
def afterWriteTick (s : State) : Phase := if moreTicks s then .wrClr else .wrEnd

/-- The phase `wide` on a variable clock width link, `fixed` on a fixed one, where the wait phases are absent
(R181). -/
def byWidth (s : State) (fixed wide : Phase) : Phase := if s.link.fixedClkWidth then fixed else wide

/-- The turnaround phases (R183). -/
def turnaroundPhase (s : State) : State :=
  match s.phase with
  | .taCheck =>
      if requestedDir s.op = s.dir then goto (firstPhase s.op) s
      else if requestedDir s.op = .float then goto .taMi s else goto .taSet s
  | .taMi => goto .taSet (pinMode .input s)
  | .taSet => goto (byWidth s .taSet2 .taWait) (pinWriteClk true s)
  | .taSet2 => goto .taClr (pinWriteClk true s)
  | .taWait => goto .taClr (wait s.timing.turnaround s)
  | .taClr =>
      if requestedDir s.op = .drive then goto .taMo (pinWriteClk false s)
      else goto (firstPhase s.op) { pinWriteClk false s with dir := .float }
  | .taMo => goto (firstPhase s.op) { pinMode .output s with dir := .drive }
  | _ => s

/-- The phases of `read` (R184). -/
def readPhase (s : State) : State :=
  match s.phase with
  | .rdSmp => goto .rdSet (sampleToSmp s)
  | .rdSet => goto (byWidth s .rdClr .rdWait) (accumulate (pinWriteClk true s))
  | .rdWait => goto .rdClr (wait s.timing.seqIn s)
  | .rdClr =>
      let u := nextBit (pinWriteClk false s)
      if moreTicks u then goto .rdSmp u else complete { u with rdata := u.shift }
  | _ => s

/-- The phases of `readWithParity` (R185). -/
def readParPhase (s : State) : State :=
  match s.phase with
  | .rpClr => goto .rpSmp (pinWriteClk false s)
  | .rpSmp => goto .rpSet (sampleToSmp s)
  | .rpSet =>
      let u := nextBit (accumulate (pinWriteClk true s))
      goto (byWidth u (afterReadParTick u) .rpWait) u
  | .rpWait => goto (afterReadParTick s) (wait s.timing.seqInParLoop s)
  | .rpPclr => goto .rpPsmp (pinWriteClk false s)
  | .rpPsmp => goto .rpPset (sampleToPar s)
  | .rpPset => goto (byWidth s .rpPend .rpPwait) (pinWriteClk true s)
  | .rpPwait => goto .rpPend (wait s.timing.seqInParEnd s)
  | .rpPend =>
      let u := pinWriteClk false s
      complete { u with rdata := u.shift, perr := parityMismatch u.shift u.par }
  | _ => s

/-- The phases of `write` (R186). -/
def writePhase (s : State) : State :=
  match s.phase with
  | .wrPre => goto .wrClr (driveBit s)
  | .wrClr => goto .wrDrv (pinWriteClk false s)
  | .wrDrv => goto .wrSet (nextBit (shiftOut (driveBit s)))
  | .wrSet => goto (byWidth s (afterWriteTick s) .wrWait) (pinWriteClk true s)
  | .wrWait => goto (afterWriteTick s) (wait s.timing.seqOut s)
  | .wrEnd => complete (pinWriteClk false s)
  | _ => s

/-- The phases of `writeWithParity` (R186). -/
def writeParPhase (s : State) : State :=
  match s.phase with
  | .wpPre => goto .wpSet (driveBit s)
  | .wpSet => goto .wpDrv (nextBit (shiftOut (pinWriteClk true s)))
  | .wpDrv => goto (byWidth s .wpClr .wpWait) (driveBit s)
  | .wpWait => goto .wpClr (wait s.timing.seqOutParLoop s)
  | .wpClr => goto (if moreTicks s then .wpSet else .wpPdrv) (pinWriteClk false s)
  | .wpPdrv => goto .wpPclr (pinWriteDio s.par s)
  | .wpPclr => goto (byWidth s .wpPset .wpPwait1) (pinWriteClk false s)
  | .wpPwait1 => goto .wpPset (wait s.timing.seqOutParLoop s)
  | .wpPset => goto (byWidth s .wpPset2 .wpPwait2) (pinWriteClk true s)
  | .wpPset2 => goto .wpPend (pinWriteClk true s)
  | .wpPwait2 => goto .wpPend (wait s.timing.seqOutParEnd s)
  | .wpPend => complete (pinWriteClk false s)
  | _ => s

/-- One step of a command in flight: the phase's one event, its register update, the next phase (R180 (b), (c)).
In `Idle` there is nothing to perform. -/
def phaseStep (s : State) : State :=
  match s.phase with
  | .idle => s
  | .taCheck | .taMi | .taSet | .taSet2 | .taWait | .taClr | .taMo => turnaroundPhase s
  | .rdSmp | .rdSet | .rdWait | .rdClr => readPhase s
  | .rpClr | .rpSmp | .rpSet | .rpWait | .rpPclr | .rpPsmp | .rpPset | .rpPwait | .rpPend => readParPhase s
  | .wrPre | .wrClr | .wrDrv | .wrSet | .wrWait | .wrEnd => writePhase s
  | .wpPre | .wpSet | .wpDrv | .wpWait | .wpClr | .wpPdrv | .wpPclr | .wpPwait1 | .wpPset | .wpPset2
  | .wpPwait2 | .wpPend => writeParPhase s

/-- The accept step (R180 (a)): the checks of 60_exceptions.md R204, the operands, the entry actions of R184 to R186,
and the first phase; `init` and `configureTiming` accept and complete in one step. -/
def acceptStep (i : Instr) (s : State) : Host.Outcome State Fault Refusal :=
  match i with
  | .read t =>
      admitTransport 0#2 t (fun s => goto .taCheck (startLoop 0#32 (loadOperands 0b000#3 t s))) s
  | .readWithParity t =>
      admitTransport 1#2 t (fun s => goto .taCheck (startLoop 0#32 (loadOperands 0b001#3 t s))) s
  | .write w t =>
      admitTransport 2#2 t
        (fun s => goto .taCheck (startLoop w (loadWord w (loadOperands 0b010#3 t s)))) s
  | .writeWithParity w t =>
      admitTransport 3#2 t
        (fun s => goto .taCheck
          { startLoop w (loadWord w (loadOperands 0b011#3 t s)) with par := writeParity w t.toNat }) s
  | .init => .next (runInit s)
  | .configureTiming p => admitTiming (runConfigureTiming p) s

/-- Phase steps until `Idle`, at most `n` of them. -/
def runToIdle : Nat → State → State
  | 0, s => s
  | n + 1, s => if s.phase = .idle then s else runToIdle n (phaseStep s)

/-- The event-level step of the whole block (00_scope.md R15; R180): accept in `Idle`, else one phase step. -/
def eventStep (s : State) : Host.Outcome State Fault Refusal :=
  match s.phase, s.host with
  | .idle, [] => .next s
  | .idle, c :: rest =>
    match decode c with
    | .ok i => acceptStep i { s with host := rest }
    | .error r => .refused (refusalOf r)
  | _, _ => .next (phaseStep s)

end Sys2Proof.Machine
end

