-- ==== Sys2Proof/Machine/Step.lean ====
section
/-! DEFINITION. One step of the block, and where it takes its next command. The step runs one whole command: a
command is indivisible from the host's side (spec/20_memory.md R57). A command in flight, which no step of this
level leaves behind, goes on event by event (45_microsequencer.md R180). Log entry 1. -/

namespace Sys2Proof.Machine

/-- One step. Idle with a command presented: decode and carry it out, or refuse it by name. Idle with none: the block
waits (70_reset_and_hazards.md R220). Not idle: one event of the command in flight; the presented command is
neither accepted nor lost (30_encoding.md R76). -/
def step (s : State) : Host.Outcome State Fault Refusal :=
  if s.phase = .idle then
    match s.host with
    | [] => .next s
    | c :: rest =>
      match decode c with
      | .ok i => exec i { s with host := rest }
      | .error r => .refused (refusalOf r)
  else .next (phaseStep s)

/-- `s` with the instruction whose bits are the low `nbits` bits of `w` presented next on the command ports, its
operand ports 0 (log entries 7, 14). -/
def State.withFetchWord (s : State) (nbits w : Nat) : State := present (tableCommand nbits w) s

end Sys2Proof.Machine
end

