-- ==== Sys2Proof/Machine/Links.lean ====
section
/-! DEFINITION. Several links side by side, each a separate instance of the whole state; they share nothing
(spec/60_exceptions.md R212). -/

namespace Sys2Proof.Machine

/-- Several links. -/
abbrev Links := List State

/-- One step of link `k`; there is no answer where there is no such link. Beyond their target lists two links that
have drawn equally often get the same free answer (DESIGN CHOICE, log entry 19). A refusal of
link `k` ends the step of the whole list, with the reason of link `k`: the spec says nothing of the other links then
(DESIGN CHOICE, log entry 19). -/
def stepLink (k : Nat) (ls : Links) : Option (Host.Outcome Links Fault Refusal) :=
  ls[k]?.map fun s =>
    match step s with
    | .next t => .next (ls.set k t)
    | .fault f => .fault f
    | .refused r => .refused r

end Sys2Proof.Machine
end

