-- ==== Sys2Proof/Machine/Ports.lean ====
section
/-! DEFINITION. The ports of the block, as functions of the state (spec/30_encoding.md R70, R76, R77). -/

namespace Sys2Proof.Machine

/-- `cmd_valid`: the host presents a command. -/
def cmdValid (s : State) : Bool := !s.host.isEmpty

/-- `cmd_ready`: the block is idle and accepts the command presented. -/
def cmdReady (s : State) : Bool := s.phase == .idle

/-- `cmd`, while `cmd_valid`. -/
def cmdPort (s : State) : Option (BitVec 9) := s.host.head?.map Command.word

/-- `cmd_wdata`, while `cmd_valid`. -/
def cmdWdataPort (s : State) : Option Word := s.host.head?.map Command.wdata

/-- `cmd_profile`, while `cmd_valid`. -/
def cmdProfilePort (s : State) : Option (BitVec 224) := s.host.head?.map Command.profile

/-- `rsp_valid` in the step from `s` to `t`: a command has completed (R77). -/
def rspValid (s t : State) : Bool := decide (s.responses.length < t.responses.length)

/-- `rsp_rdata`. -/
def rspRdata (s : State) : Word := s.rdata

/-- `rsp_perr`. -/
def rspPerr (s : State) : Bool := s.perr

/-- `rsp_status`. -/
def rspStatus (s : State) : BitVec 1 := s.status

/-- `swclk_o`. -/
def swclkO (s : State) : Level := s.clkO

/-- `swdio_o`. -/
def swdioO (s : State) : Level := s.dioO

/-- `swdio_oe` (1 = output). -/
def swdioOe (s : State) : BitVec 1 := s.dioOe.bit

/-- `swdio_i`, read at each `PinRead(DIO)` (10_state.md R36). -/
def swdioI (s : State) : Level := answer s

end Sys2Proof.Machine
end

