-- ==== Sys2Proof/Machine/Text.lean ====
section
/-! DEFINITION. The textual form of a command (spec/30_encoding.md R84, R85), read from a list of characters. -/

namespace Sys2Proof.Machine

/-- One line: a command, or the direct call of the internal procedure a test may write (R85). -/
inductive TextLine where
  | command (i : Instr)
  | turnaround (d : Direction)
deriving DecidableEq, Repr

/-- The line up to `#`, which opens a comment (R84). -/
def dropComment (cs : List Char) : List Char := cs.takeWhile (· != '#')

/-- Without the spaces at either end. -/
def trimSpaces (cs : List Char) : List Char :=
  ((cs.dropWhile (· == ' ')).reverse.dropWhile (· == ' ')).reverse

/-- The pieces between commas, `acc` holding the piece read so far, reversed. -/
def splitCommas (acc : List Char) : List Char → List (List Char)
  | [] => [acc.reverse]
  | c :: cs => if c = ',' then acc.reverse :: splitCommas [] cs else splitCommas (c :: acc) cs

/-- The value of a digit in base 16. -/
def digitValue (c : Char) : Option Nat :=
  let n := c.toNat
  if 48 ≤ n ∧ n ≤ 57 then some (n - 48)
  else if 97 ≤ n ∧ n ≤ 102 then some (n - 87)
  else if 65 ≤ n ∧ n ≤ 70 then some (n - 55)
  else none

/-- A run of digits in a base, after the value read so far. -/
def digits (base : Nat) (acc : Nat) : List Char → Option Nat
  | [] => some acc
  | c :: cs =>
    match digitValue c with
    | some d => if d < base then digits base (acc * base + d) cs else none
    | none => none

/-- A number: decimal, hexadecimal with `0x`, binary with `0b` (R84). -/
def number (cs : List Char) : Option Nat :=
  match cs with
  | [] => none
  | '0' :: 'x' :: d :: ds => digits 16 0 (d :: ds)
  | '0' :: 'b' :: d :: ds => digits 2 0 (d :: ds)
  | d :: ds => digits 10 0 (d :: ds)

/-- A number that fits `n` bits. -/
def operand (n : Nat) (cs : List Char) : Option (BitVec n) :=
  match number cs with
  | some v => if v < 2 ^ n then some (BitVec.ofNat n v) else none
  | none => none

/-- The operands of a line, each trimmed; no text at all is no operand. -/
def operandList (cs : List Char) : List (List Char) :=
  if trimSpaces cs = [] then [] else (splitCommas [] cs).map trimSpaces

/-- The command a name and its operands stand for: BMP's names and their aliases (R84), and `turnaround` (R85). -/
def lineOf (name : List Char) (ops : List (List Char)) : Option TextLine :=
  let is (s : List Char) : Bool := name == s
  let one (f : BitVec 6 → Instr) : Option TextLine :=
    match ops with
    | [t] => (operand 6 t).map fun t => .command (f t)
    | _ => none
  let two (f : Word → BitVec 6 → Instr) : Option TextLine :=
    match ops with
    | [w, t] => (operand 32 w).bind fun w => (operand 6 t).map fun t => .command (f w t)
    | _ => none
  if is ['r','e','a','d'] || is ['s','e','q','_','i','n'] then one .read
  else if is ['r','e','a','d','W','i','t','h','P','a','r','i','t','y']
      || is ['s','e','q','_','i','n','_','p','a','r','i','t','y'] then one .readWithParity
  else if is ['w','r','i','t','e'] || is ['s','e','q','_','o','u','t'] then two .write
  else if is ['w','r','i','t','e','W','i','t','h','P','a','r','i','t','y']
      || is ['s','e','q','_','o','u','t','_','p','a','r','i','t','y'] then two .writeWithParity
  else if is ['i','n','i','t'] then
    match ops with
    | [] => some (.command .init)
    | _ => none
  else if is ['c','o','n','f','i','g','u','r','e','T','i','m','i','n','g'] then
    match ops.mapM (operand 32) with
    | some [a, b, c, d, e, f, g] => some (.command (.configureTiming ⟨a, b, c, d, e, f, g⟩))
    | _ => none
  else if is ['t','u','r','n','a','r','o','u','n','d'] then
    match ops with
    | [d] =>
      if d = ['F','l','o','a','t'] then some (.turnaround .float)
      else if d = ['D','r','i','v','e'] then some (.turnaround .drive)
      else none
    | _ => none
  else none

/-- One line of text (R84): a name, a space, the operands between commas, an optional comment. -/
def parseLine (cs : List Char) : Option TextLine :=
  let body := trimSpaces (dropComment cs)
  lineOf (body.takeWhile (· != ' ')) (operandList (body.dropWhile (· != ' ')))

end Sys2Proof.Machine
end

