-- ==== Sys2Proof/Machine/Trace.lean ====
section
/-! DEFINITION. Traces: pin traces (spec/00_scope.md R10), event records (30_encoding.md R83), the samples a state will
draw (R13), and the event shapes the operation rules give (R94, R113, R119, R133, R138), written from those rules
and not from the machine. -/

namespace Sys2Proof.Machine

/-- The event is a wait. -/
def Event.isWait : Event → Bool
  | .wait _ => true
  | _ => false

/-- The pin trace: the full trace with every wait removed (R10). -/
def pinTrace (es : List Event) : List Event := es.filter fun e => !e.isWait

/-- The events `t` has that `s` had not: those of the step between them. -/
def newEvents (s t : State) : List Event := t.trace.drop s.trace.length

/-- A 4-bit event code, followed by a count for a wait (R83). -/
structure EventRecord where
  code  : BitVec 4
  count : Option DelayCount
deriving DecidableEq, Repr

/-- The binary record of an event (R83). -/
def recordOf : Event → EventRecord
  | .clk false => ⟨0b0000#4, none⟩
  | .clk true => ⟨0b0001#4, none⟩
  | .dio false => ⟨0b0010#4, none⟩
  | .dio true => ⟨0b0011#4, none⟩
  | .mode .input => ⟨0b0100#4, none⟩
  | .mode .output => ⟨0b0101#4, none⟩
  | .sample false => ⟨0b0110#4, none⟩
  | .sample true => ⟨0b0111#4, none⟩
  | .wait n => ⟨0b1000#4, some n⟩

/-- The event a record stands for; codes `1001` to `1111` are unused, and a count follows `1000` alone (R83). -/
def eventOf (r : EventRecord) : Option Event :=
  match r.code.toNat, r.count with
  | 0, none => some (.clk false)
  | 1, none => some (.clk true)
  | 2, none => some (.dio false)
  | 3, none => some (.dio true)
  | 4, none => some (.mode .input)
  | 5, none => some (.mode .output)
  | 6, none => some (.sample false)
  | 7, none => some (.sample true)
  | 8, some n => some (.wait n)
  | _, _ => none

/-- The answer of sample `k` from here on, counting from 0 (R13): the target's list, then free values. -/
def sampleAt (s : State) (k : Nat) : Level :=
  if k < s.target.length then s.target.getD k false
  else Config.freeSample (s.draws + (k - s.target.length))

/-- The answers of the next `n` samples, in order. -/
def samples (s : State) (n : Nat) : List Level := (List.range n).map (sampleAt s)

/-- The sum of `s_i * 2^i` (41_seq_in.md R111). -/
def bitSum : List Level → Nat
  | [] => 0
  | b :: bs => b.toNat + 2 * bitSum bs

/-- The word a reader assembles from its samples (41_seq_in.md R111). -/
def wordOfSamples (bs : List Level) : Word := BitVec.ofNat 32 (bitSum bs)

/-- The event of a wait of `n`, on a link that has waits (43_timing.md R150). -/
def waitShape (l : Config.Link) (n : DelayCount) : List Event := if l.fixedClkWidth then [] else [.wait n]

/-- A set phase that is doubled on a fixed clock width link (00_scope.md R7). -/
def setShape (l : Config.Link) : List Event :=
  if l.fixedClkWidth then [.clk true, .clk true] else [.clk true]

/-- The events of the turnaround clock pulse (40_turnaround.md R94). -/
def pulseShape (s : State) : List Event :=
  setShape s.link ++ (waitShape s.link s.timing.turnaround ++ [Event.clk false])

/-- The events of `turnaround d` in state `s` (40_turnaround.md R91, R94). -/
def turnaroundShape (d : Direction) (s : State) : List Event :=
  match s.dir, d with
  | .float, .float => []
  | .drive, .drive => []
  | .drive, .float => Event.mode .input :: pulseShape s
  | .float, .drive => pulseShape s ++ [Event.mode .output]

/-- The events of one tick of `read` that samples `v` (41_seq_in.md R113). -/
def readTickShape (s : State) (v : Level) : List Event :=
  Event.sample v :: Event.clk true :: (waitShape s.link s.timing.seqIn ++ [Event.clk false])

/-- The events of `read` after its turnaround, for given samples (41_seq_in.md R113). -/
def readShape (s : State) (bs : List Level) : List Event := bs.flatMap (readTickShape s)

/-- The events of one data tick of `readWithParity` that samples `v` (41_seq_in.md R119). -/
def readParTickShape (s : State) (v : Level) : List Event :=
  Event.clk false :: Event.sample v :: Event.clk true :: waitShape s.link s.timing.seqInParLoop

/-- The events of the parity cycle of `readWithParity` that samples `p` (41_seq_in.md R119). -/
def readParEndShape (s : State) (p : Level) : List Event :=
  Event.clk false :: Event.sample p :: Event.clk true ::
    (waitShape s.link s.timing.seqInParEnd ++ [Event.clk false])

/-- The events of `readWithParity` after its turnaround (41_seq_in.md R119). -/
def readParShape (s : State) (bs : List Level) (p : Level) : List Event :=
  bs.flatMap (readParTickShape s) ++ readParEndShape s p

/-- The events of tick `i` of `write` (42_seq_out.md R133). -/
def writeTickShape (s : State) (w : Word) (i : Nat) : List Event :=
  Event.clk false :: Event.dio (w.getLsbD i) :: Event.clk true :: waitShape s.link s.timing.seqOut

/-- The events of `write` after its turnaround (42_seq_out.md R133). -/
def writeShape (s : State) (w : Word) (t : Nat) : List Event :=
  Event.dio (w.getLsbD 0) :: ((List.range t).flatMap (writeTickShape s w) ++ [Event.clk false])

/-- The events of data tick `i` of `writeWithParity`: the data line takes the next bit while the clock is high;
`w[32]` stands for 0 (42_seq_out.md R136, R138). -/
def writeParTickShape (s : State) (w : Word) (i : Nat) : List Event :=
  Event.clk true :: Event.dio (w.getLsbD (i + 1)) ::
    (waitShape s.link s.timing.seqOutParLoop ++ [Event.clk false])

/-- The events of the parity cycle of `writeWithParity` (42_seq_out.md R138). -/
def writeParEndShape (s : State) (p : Level) : List Event :=
  Event.dio p :: Event.clk false :: (waitShape s.link s.timing.seqOutParLoop ++
    (setShape s.link ++ (waitShape s.link s.timing.seqOutParEnd ++ [Event.clk false])))

/-- The events of `writeWithParity` after its turnaround (42_seq_out.md R138). -/
def writeParShape (s : State) (w : Word) (t : Nat) : List Event :=
  Event.dio (w.getLsbD 0) :: ((List.range t).flatMap (writeParTickShape s w) ++
    writeParEndShape s (writeParity w t))

end Sys2Proof.Machine
end

