-- ==== Sys2Proof/Machine/Wire.lean ====
section
/-! DEFINITION. What an observer of the two lines sees (spec/20_memory.md R66, R67; 00_scope.md R11; 10_state.md R37). No
operation rule reads any of it. -/

namespace Sys2Proof.Machine

/-- The three latches of the platform I/O layer (10_state.md R33 to R35). -/
structure Pins where
  clk : Level
  dio : Level
  oe  : PinMode
deriving DecidableEq, Repr

/-- The latches of a state. -/
def State.pins (s : State) : Pins := ⟨s.clkO, s.dioO, s.dioOe⟩

/-- The latches after one event (20_memory.md R52). -/
def Pins.after (p : Pins) : Event → Pins
  | .clk l => { p with clk := l }
  | .dio v => { p with dio := v }
  | .mode m => { p with oe := m }
  | .sample _ => p
  | .wait _ => p

/-- The latches after a list of events. -/
def Pins.afterAll (p : Pins) (es : List Event) : Pins := es.foldl Pins.after p

/-- The data wire as far as the block drives it: `DIO_O` while the pad is an output, else undriven (R37, R66). -/
def Pins.dataWire (p : Pins) : Option Level :=
  match p.oe with
  | .output => some p.dio
  | .input => none

/-- The level history of the two wires: clock wire and data wire after each event (R66). -/
def levelHistory (p : Pins) : List Event → List (Level × Option Level)
  | [] => []
  | e :: es => ((p.after e).clk, (p.after e).dataWire) :: levelHistory (p.after e) es

/-- `e` is a rising edge where the latches are `p`: a `C1` with the clock latch low (00_scope.md R11). -/
def isRise (p : Pins) (e : Event) : Bool := e == .clk true && !p.clk

/-- `e` is a falling edge: a `C0` with the clock latch high (00_scope.md R11). -/
def isFall (p : Pins) (e : Event) : Bool := e == .clk false && p.clk

/-- The rising-edge capture `RE`: mode and data latch at each rising edge (20_memory.md R66). -/
def risingCapture (p : Pins) : List Event → List (PinMode × Level)
  | [] => []
  | e :: es =>
    if isRise p e then (p.oe, p.dio) :: risingCapture (p.after e) es else risingCapture (p.after e) es

/-- How many rising edges the events make (00_scope.md R11). -/
def risingEdges (p : Pins) (es : List Event) : Nat := (risingCapture p es).length

/-- How many falling edges the events make. -/
def fallingEdges (p : Pins) : List Event → Nat
  | [] => 0
  | e :: es => (if isFall p e then 1 else 0) + fallingEdges (p.after e) es

/-- Every `D` event of the trace that changes the data latch finds the clock latch low: the data line changes only
while the clock is low (42_seq_out.md R131). -/
def dataChangesWhileLow (p : Pins) : List Event → Bool
  | [] => true
  | e :: es =>
    (match e with
      | .dio v => (v == p.dio) || !p.clk
      | _ => true) && dataChangesWhileLow (p.after e) es

/-- Every sample of the trace is taken with the clock latch low (41_seq_in.md R118). -/
def samplesWhileLow (p : Pins) : List Event → Bool
  | [] => true
  | e :: es =>
    (match e with
      | .sample _ => !p.clk
      | _ => true) && samplesWhileLow (p.after e) es

/-- The bits an observer on the rising edge takes from the block: the driven entries of the capture, in order. Direct
electrical loopback feeds these as the reader's samples (42_seq_out.md R140). -/
def drivenBits (es : List (PinMode × Level)) : List Level :=
  es.filterMap fun e => match e.1 with
    | .output => some e.2
    | .input => none

end Sys2Proof.Machine
end

