-- ==== Sys2Proof/Safety.lean ====
section
/-! DEFINITION. What counts as a safe state and a safe run, in the terms claims use: coherence (spec/10_state.md R38),
the launch premise (70_reset_and_hazards.md R224), and the host's duties (00_scope.md R17). -/

namespace Sys2Proof.Safety

open Sys2Proof.Machine

/-- Coherent: the recorded direction and the pad's mode agree (10_state.md R38). -/
def coherent (s : State) : Bool := s.dioOe == s.dir.mode

/-- Idle-low: the clock latch is low (10_state.md R38). -/
def idleLow (s : State) : Bool := !s.clkO

/-- Between commands, coherent and idle-low: what every command is written to start from. -/
def ready (s : State) : Bool := s.phase == .idle && coherent s && idleLow s

/-- The launch premise of 70_reset_and_hazards.md R224: clock low, pad an input, direction `Float`. -/
def launchPremise (s : State) : Bool :=
  s.phase == .idle && idleLow s && s.dioOe == .input && s.dir == .float

/-- The dispatch table is all empty or all populated: `init` populates the four slots together
(10_state.md R23; 20_memory.md R64). -/
def tableWhole (s : State) : Bool := s.dispatch == DispatchTable.none || s.dispatch == DispatchTable.full

/-- Every transport command has its slot. -/
def initialised (s : State) : Bool := s.dispatch == DispatchTable.full

/-- The block's duties and the host's at one command: `init` only while the pad is an input (R232); the tick range
(R235); `configureTiming` only on a variable clock width link (43_timing.md R156); transport only after `init`
(R168, R225). -/
def withinContract (s : State) : Instr → Bool
  | .read t => initialised s && legalTicks t
  | .readWithParity t => initialised s && legalTicks t
  | .write _ t => initialised s && legalTicks t
  | .writeWithParity _ t => initialised s && legalTicks t
  | .init => s.dioOe == .input
  | .configureTiming _ => !s.link.fixedClkWidth

/-- The operands a command takes from the ports (30_encoding.md R71, R73, R75), bit position by bit position. -/
def operandsOnPorts (c : Command) : Instr → Prop
  | .read t => t = c.word.extractLsb' 0 6
  | .readWithParity t => t = c.word.extractLsb' 0 6
  | .write w t => t = c.word.extractLsb' 0 6 ∧ w = c.wdata
  | .writeWithParity w t => t = c.word.extractLsb' 0 6 ∧ w = c.wdata
  | .init => True
  | .configureTiming p =>
      p.turnaround = c.profile.extractLsb' 0 32 ∧ p.seqIn = c.profile.extractLsb' 32 32 ∧
      p.seqInParLoop = c.profile.extractLsb' 64 32 ∧ p.seqInParEnd = c.profile.extractLsb' 96 32 ∧
      p.seqOut = c.profile.extractLsb' 128 32 ∧ p.seqOutParLoop = c.profile.extractLsb' 160 32 ∧
      p.seqOutParEnd = c.profile.extractLsb' 192 32

/-- The command is one of the four transport operations (30_encoding.md R72). -/
def isTransport : Instr → Bool
  | .read _ | .readWithParity _ | .write _ _ | .writeWithParity _ _ => true
  | .init | .configureTiming _ => false

/-- The direction a transport command requests (40_turnaround.md R90). -/
def requests : Instr → Option Direction
  | .read _ | .readWithParity _ => some .float
  | .write _ _ | .writeWithParity _ _ => some .drive
  | .init | .configureTiming _ => none

/-- 1 if the command's turnaround changes the direction, else 0 (20_memory.md R67, 45_microsequencer.md R188). -/
def turns (s : State) (i : Instr) : Nat :=
  match requests i with
  | some d => if d = s.dir then 0 else 1
  | none => 0

/-- The number of events of a command in the full trace (45_microsequencer.md R188). -/
def eventCount (s : State) (i : Instr) : Nat :=
  match s.link.fixedClkWidth, i with
  | false, .read t => 4 * t.toNat + 4 * turns s i
  | false, .readWithParity t => 4 * t.toNat + 5 + 4 * turns s i
  | false, .write _ t => 4 * t.toNat + 2 + 4 * turns s i
  | false, .writeWithParity _ t => 4 * t.toNat + 7 + 4 * turns s i
  | true, .read t => 3 * t.toNat + 4 * turns s i
  | true, .readWithParity t => 3 * t.toNat + 4 + 4 * turns s i
  | true, .write _ t => 3 * t.toNat + 2 + 4 * turns s i
  | true, .writeWithParity _ t => 3 * t.toNat + 6 + 4 * turns s i
  | _, .init => 0
  | _, .configureTiming _ => 0

/-- The number of rising edges of a command from an idle-low start (20_memory.md R67). -/
def edgeCount (s : State) (i : Instr) : Nat :=
  match i with
  | .read t => t.toNat + turns s i
  | .readWithParity t => t.toNat + 1 + turns s i
  | .write _ t => t.toNat + turns s i
  | .writeWithParity _ t => t.toNat + 1 + turns s i
  | .init => 0
  | .configureTiming _ => 0

/-- The waits of a command, in order, each with its count (43_timing.md R153). -/
def waitsOf (s : State) (i : Instr) : List Event :=
  if s.link.fixedClkWidth then []
  else
    List.replicate (turns s i) (.wait s.timing.turnaround) ++
    match i with
    | .read t => List.replicate t.toNat (.wait s.timing.seqIn)
    | .readWithParity t =>
        List.replicate t.toNat (.wait s.timing.seqInParLoop) ++ [.wait s.timing.seqInParEnd]
    | .write _ t => List.replicate t.toNat (.wait s.timing.seqOut)
    | .writeWithParity _ t =>
        List.replicate (t.toNat + 1) (.wait s.timing.seqOutParLoop) ++ [.wait s.timing.seqOutParEnd]
    | .init => []
    | .configureTiming _ => []

/-! ## The invariant of a command in flight -/

/-- The clock level each phase finds, from an idle-low start (43_timing.md R153, 45_microsequencer.md R183 to R186). Two
phases are entered with the clock at either level: the first `C0` of a loop is not an edge, the later ones
are (41_seq_in.md R117, 42_seq_out.md R133). -/
def clockFound : Phase → Option Level
  | .idle | .taCheck | .taMi | .taSet | .taMo => some false
  | .taSet2 | .taWait | .taClr => some true
  | .rdSmp | .rdSet => some false
  | .rdWait | .rdClr => some true
  | .rpClr => none
  | .rpSmp | .rpSet | .rpPsmp | .rpPset => some false
  | .rpWait | .rpPclr | .rpPwait | .rpPend => some true
  | .wrClr => none
  | .wrPre | .wrDrv | .wrSet => some false
  | .wrWait | .wrEnd => some true
  | .wpPre | .wpSet | .wpPdrv | .wpPclr | .wpPwait1 | .wpPset => some false
  | .wpDrv | .wpWait | .wpClr | .wpPset2 | .wpPwait2 | .wpPend => some true

/-- The dispatch slot whose operation owns a phase; the turnaround and `Idle` belong to none. -/
def ownerSlot : Phase → Option (BitVec 2)
  | .idle | .taCheck | .taMi | .taSet | .taSet2 | .taWait | .taClr | .taMo => none
  | .rdSmp | .rdSet | .rdWait | .rdClr => some 0
  | .rpClr | .rpSmp | .rpSet | .rpWait | .rpPclr | .rpPsmp | .rpPset | .rpPwait | .rpPend => some 1
  | .wrPre | .wrClr | .wrDrv | .wrSet | .wrWait | .wrEnd => some 2
  | .wpPre | .wpSet | .wpDrv | .wpWait | .wpClr | .wpPdrv | .wpPclr | .wpPwait1 | .wpPset | .wpPset2
  | .wpPwait2 | .wpPend => some 3

/-- The recorded direction, the requested one and the pad's mode, phase by phase: they agree but inside the
turnaround, where the pad is an input throughout the pulse (40_turnaround.md R92, R95). -/
def padFound (s : State) : Bool :=
  match s.phase with
  | .idle | .taCheck => s.dioOe == s.dir.mode
  | .taMi => s.dir == .drive && requestedDir s.op == .float && s.dioOe == .output
  | .taSet | .taSet2 | .taWait | .taClr => s.dir != requestedDir s.op && s.dioOe == .input
  | .taMo => s.dir == .float && requestedDir s.op == .drive && s.dioOe == .input
  | _ => s.dir == requestedDir s.op && s.dioOe == s.dir.mode

/-- How far `BITIDX` has counted, phase by phase (10_state.md R26). -/
def ticksFound (s : State) : Bool :=
  match s.phase with
  | .idle => true
  | .taCheck | .taMi | .taSet | .taSet2 | .taWait | .taClr | .taMo | .wrPre | .wpPre => s.bitidx == 0
  | .rdSmp | .rdSet | .rdWait | .rdClr | .rpClr | .rpSmp | .rpSet | .wrClr | .wrDrv | .wpSet => moreTicks s
  | .rpWait | .wrSet | .wrWait | .wpDrv | .wpWait | .wpClr =>
      decide (1 ≤ s.bitidx.toNat) && decide (s.bitidx.toNat ≤ s.ticks.toNat)
  | .rpPclr | .rpPsmp | .rpPset | .rpPwait | .rpPend | .wrEnd
  | .wpPdrv | .wpPclr | .wpPwait1 | .wpPset | .wpPset2 | .wpPwait2 | .wpPend => s.bitidx == s.ticks

/-- The invariant of a link, between commands and inside one: clock level, pad and direction, tick count, and the
operation in `OP`, a transport operation, agree with the phase. In `Idle` it is coherence and idle-low (10_state.md R38). -/
def flightInv (s : State) : Bool :=
  (match clockFound s.phase with
    | some l => s.clkO == l
    | none => true) &&
  padFound s && ticksFound s &&
  (match ownerSlot s.phase with
    | some k => s.op == k.setWidth 3
    | none => true) &&
  (s.phase == .idle || (ticksInRange s.ticks && !s.op.getLsbD 2))

/-- Where the block is idle, the command it takes next is not an `init` issued while the pad is driving: the host's
duty of 70_reset_and_hazards.md R232. A command in flight takes no presented one (30_encoding.md R76), so an `init`
that waits behind it is no breach. -/
def initOnlyReleased (s : State) : Bool :=
  s.phase != .idle ||
  match s.host with
  | [] => true
  | c :: _ => !(decide (decode c = .ok .init)) || s.dioOe == .input

/-- The dispatch table is whole and `STATUS` is 0 (10_state.md R23, R30). -/
def tableInv (s : State) : Bool := tableWhole s && s.status == 0

/-- The same state on a link whose delay unit lasts `n` cycles (43_timing.md R151). -/
def withDelayUnit (n : Nat) (s : State) : State := { s with link := { s.link with delayUnitCycles := n } }

/-- Two states that differ at most in the timing profile and in the waits of their full traces: the same registers,
pins, inputs, responses and pin trace (43_timing.md R157). -/
def sameButTiming (a b : State) : Prop :=
  { a with timing := b.timing, trace := b.trace } = b ∧ pinTrace a.trace = pinTrace b.trace

end Sys2Proof.Safety
end

