-- ==== Sys2Proof/Certificates/Slice0/Obligations.lean ====
section
/-! DEFINITION. The statements about the block, each with the rule or the section of spec/ it formalises. The
observer's fields `trace` and `responses`, the inputs `host` and `target` and the counter `draws` are the model's
(log entries 2, 7, 8); a statement holds for every value of each, and every state is quantified over both variants
of the link (log entry 3). -/

open Sys2Proof
open Sys2Proof.Machine
open Sys2Proof.Safety

/-! ## Encoding -/

/-- Decoding what the encoder puts on the ports gives the command back, for every command with every operand
(30_encoding.md, sections 2 and 4; the bit positions are the spec's decisions D3, D4, D17). -/
def Obligations.DecodeInvertsEncode : Prop := ∀ i : Instr, decode (encode i) = .ok i

/-- A command decodes to `i` exactly when its word selects the row of `i` in opcode_table.json (`c and mask = match`)
and the operands of `i` stand on the ports (30_encoding.md, section 2). -/
def Obligations.DecodeFollowsTheOpcodeTable : Prop :=
  ∀ (c : Command) (i : Instr),
    decode c = .ok i ↔ ((rowOf i).selects c.word = true ∧ operandsOnPorts c i)

/-- The words of the spec's own encoding examples decode to the commands they stand for (30_encoding.md, section 8). -/
def Obligations.SpecExampleWordsDecode : Prop :=
  decode ⟨0x003, 0, 0⟩ = .ok (.read 3) ∧
  decode ⟨0x020, 0, 0⟩ = .ok (.read 32) ∧
  decode ⟨0x044, 0, 0⟩ = .ok (.readWithParity 4) ∧
  decode ⟨0x060, 0, 0⟩ = .ok (.readWithParity 32) ∧
  decode ⟨0x084, 0x0000000B, 0⟩ = .ok (.write 0b1011 4) ∧
  decode ⟨0x088, 0x000000A5, 0⟩ = .ok (.write 0xA5 8) ∧
  decode ⟨0x0C4, 0x0000000B, 0⟩ = .ok (.writeWithParity 0b1011 4) ∧
  decode ⟨0x0E0, 0x12345678, 0⟩ = .ok (.writeWithParity 0x12345678 32) ∧
  decode ⟨0x100, 0, 0⟩ = .ok .init ∧
  decode ⟨0x140, 0, 0x00000007000000060000000500000004000000030000000200000001⟩ =
    .ok (.configureTiming ⟨1, 2, 3, 4, 5, 6, 7⟩) ∧
  decode ⟨0x180, 0, 0⟩ = .error .reservedOpcode

/-- A binary event record is read back as the event it records, and no other record stands for that event
(30_encoding.md, section 6; decision D13). -/
def Obligations.EventRecordsAreUnambiguous : Prop :=
  ∀ (e : Event) (r : EventRecord), eventOf r = some e ↔ r = recordOf e

/-! ## Steps and acceptance -/

/-- An idle block with a presented command that decodes to `i` runs `i`, and the command leaves the host's list; with
none presented it stays as it is (30_encoding.md, section 3; log entry 1). -/
def Obligations.StepRunsThePresentedCommand : Prop :=
  ∀ s : State, s.phase = .idle →
    (∀ c rest i, s.host = c :: rest → decode c = .ok i → step s = exec i { s with host := rest }) ∧
    (s.host = [] → step s = .next s)

/-- What a presented command word meets, in the order of the acceptance checks (60_exceptions.md R204, whose order is
the spec's decision D8; 00_scope.md R14): one refusal, the first that applies, or it completes. -/
def Obligations.AcceptanceChecksInOrder : Prop :=
  ∀ (s : State) (c : Command) (rest : List Command), s.phase = .idle → s.host = c :: rest →
    let op := c.word.extractLsb' 6 3
    let t := (c.word.extractLsb' 0 6).toNat
    if op = 0b110#3 ∨ op = 0b111#3 then step s = .refused .reservedOpcode
    else if (op = 0b100#3 ∨ op = 0b101#3) ∧ t ≠ 0 then step s = .refused .reservedField
    else if op = 0b101#3 ∧ s.link.fixedClkWidth = true then step s = .refused .timingAbsent
    else if (op = 0b000#3 ∧ s.dispatch.slot0 = .empty) ∨ (op = 0b001#3 ∧ s.dispatch.slot1 = .empty) ∨
        (op = 0b010#3 ∧ s.dispatch.slot2 = .empty) ∨ (op = 0b011#3 ∧ s.dispatch.slot3 = .empty) then
      step s = .refused .notInitialised
    else if op.toNat < 4 ∧ (t = 0 ∨ 32 < t) then step s = .refused .ticksOutOfRange
    else ∃ u, step s = .next u ∧ u.phase = .idle ∧ u.host = rest

/-- While a command is in flight the presented command is neither accepted nor lost, the operand registers, the
timing profile and the dispatch table keep their values, and each step performs at most one event
(30_encoding.md, section 3; 45_microsequencer.md, section 1; 10_state.md R25). -/
def Obligations.BusyBlockTakesNoCommand : Prop :=
  ∀ s : State, s.phase ≠ .idle →
    ∃ u, step s = .next u ∧ u.host = s.host ∧ u.op = s.op ∧ u.ticks = s.ticks ∧ u.wdata = s.wdata ∧
      u.timing = s.timing ∧ u.dispatch = s.dispatch ∧ u.link = s.link ∧ u.status = s.status ∧
      (u.trace = s.trace ∨ ∃ e, u.trace = s.trace ++ [e])

/-- A completed command leaves the block idle and raises `rsp_valid` once, showing the result registers as they then
stand (30_encoding.md, section 3; decision D20). -/
def Obligations.EachCommandGivesOneResponse : Prop :=
  ∀ (i : Instr) (s u : State), exec i s = .next u →
    u.phase = .idle ∧ rspValid s u = true ∧
    u.responses = s.responses ++ [⟨rspRdata u, rspPerr u, rspStatus u⟩]

/-! ## Turnaround -/

/-- Asking again for the recorded direction is electrically silent and changes no state, and a second call with the
same direction adds nothing to the first (40_turnaround.md R93). -/
def Obligations.RepeatedTurnaroundIsSilent : Prop :=
  ∀ (d : Direction) (s : State),
    (d = s.dir → turnaround d s = s) ∧ turnaround d (turnaround d s) = turnaround d s

/-- The four direction changes of the FSM on both variants: their events in order, and the state they leave; nothing
else changes (40_turnaround.md, sections 2 and 3; the place of the wait is decision D7). -/
def Obligations.TurnaroundPulsesOncePerChange : Prop :=
  ∀ s : State,
    (s.dir = .drive → s.link.fixedClkWidth = false →
      turnaround .float s = { s with dir := .float, dioOe := .input, clkO := false, trace := s.trace ++
        [.mode .input, .clk true, .wait s.timing.turnaround, .clk false] }) ∧
    (s.dir = .drive → s.link.fixedClkWidth = true →
      turnaround .float s = { s with dir := .float, dioOe := .input, clkO := false, trace := s.trace ++
        [.mode .input, .clk true, .clk true, .clk false] }) ∧
    (s.dir = .float → s.link.fixedClkWidth = false →
      turnaround .drive s = { s with dir := .drive, dioOe := .output, clkO := false, trace := s.trace ++
        [.clk true, .wait s.timing.turnaround, .clk false, .mode .output] }) ∧
    (s.dir = .float → s.link.fixedClkWidth = true →
      turnaround .drive s = { s with dir := .drive, dioOe := .output, clkO := false, trace := s.trace ++
        [.clk true, .clk true, .clk false, .mode .output] })

/-- From a coherent idle-low state the block drives nothing on the turnaround's one rising edge, and the level the
pad takes up towards `Drive` is the old `DIO_O`, with the clock low (40_turnaround.md, section 3, R95 and R96). That
the latch held its level while the pad was an input is presumed (log entry 16; the spec's general-knowledge item
G1), and the observer is decision D14. -/
def Obligations.TurnaroundEdgeIsUndriven : Prop :=
  ∀ (d : Direction) (s : State), coherent s = true → idleLow s = true → d ≠ s.dir →
    risingCapture s.pins (newEvents s (turnaround d s)) = [(.input, s.dioO)] ∧
    (d = .drive →
      (levelHistory s.pins (newEvents s (turnaround d s))).getLast? = some (false, some s.dioO))

/-! ## The bit-serial in engine -/

/-- `read`: encoding, refusals and the whole next state (41_seq_in.md R110). The samples are the target's answers,
free beyond its list (log entry 2); the observers and the operand registers follow log entries 8 and 9. -/
def Obligations.ReadClocksInAWord : Prop :=
  ∀ (t : BitVec 6) (s : State),
    opCode (.read t) = 0b000#3 ∧
    (s.dispatch.slot0 = .empty → exec (.read t) s = .refused .notInitialised) ∧
    (s.dispatch.slot0 = .populated → (t.toNat = 0 ∨ 32 < t.toNat) →
      exec (.read t) s = .refused .ticksOutOfRange) ∧
    (s.dispatch.slot0 = .populated → 1 ≤ t.toNat → t.toNat ≤ 32 →
      exec (.read t) s = .next { s with
        op := 0b000#3
        ticks := t
        dir := .float
        dioOe := if s.dir = .float then s.dioOe else .input
        clkO := false
        shift := wordOfSamples (samples s t.toNat)
        bitidx := t
        smp := sampleAt s (t.toNat - 1)
        phase := .idle
        rdata := wordOfSamples (samples s t.toNat)
        target := s.target.drop t.toNat
        draws := s.draws + (t.toNat - s.target.length)
        trace := s.trace ++ turnaroundShape .float s ++ readShape s (samples s t.toNat)
        responses := s.responses ++ [⟨wordOfSamples (samples s t.toNat), s.perr, s.status⟩] })

/-- Result law of `read`: bit `i` of `RDATA` is sample `i` for `i < t`, and the bits above are 0, whatever the variant,
the delay counts and the old `RDATA` (41_seq_in.md R111, derived there from R110). -/
def Obligations.ReadBitsAreTheSamples : Prop :=
  ∀ (t : BitVec 6) (s : State), s.dispatch.slot0 = .populated → 1 ≤ t.toNat → t.toNat ≤ 32 →
    ∃ u, exec (.read t) s = .next u ∧ u.perr = s.perr ∧
      ∀ i, i < 32 → u.rdata.getLsbD i = (decide (i < t.toNat) && sampleAt s i)

/-- `readWithParity`: encoding, refusals and the whole next state (41_seq_in.md R114). Samples, observers
and operand registers follow log entries 2, 8 and 9. -/
def Obligations.ReadWithParityClocksInAWord : Prop :=
  ∀ (t : BitVec 6) (s : State),
    opCode (.readWithParity t) = 0b001#3 ∧
    (s.dispatch.slot1 = .empty → exec (.readWithParity t) s = .refused .notInitialised) ∧
    (s.dispatch.slot1 = .populated → (t.toNat = 0 ∨ 32 < t.toNat) →
      exec (.readWithParity t) s = .refused .ticksOutOfRange) ∧
    (s.dispatch.slot1 = .populated → 1 ≤ t.toNat → t.toNat ≤ 32 →
      let word := wordOfSamples (samples s t.toNat)
      let p := sampleAt s t.toNat
      let flag := (popcount word % 2 == 1) ^^ p
      exec (.readWithParity t) s = .next { s with
        op := 0b001#3
        ticks := t
        dir := .float
        dioOe := if s.dir = .float then s.dioOe else .input
        clkO := false
        shift := word
        bitidx := t
        smp := sampleAt s (t.toNat - 1)
        par := p
        phase := .idle
        rdata := word
        perr := flag
        target := s.target.drop (t.toNat + 1)
        draws := s.draws + (t.toNat + 1 - s.target.length)
        trace := s.trace ++ turnaroundShape .float s ++ readParShape s (samples s t.toNat) p
        responses := s.responses ++ [⟨word, flag, s.status⟩] })

/-- Result law of `readWithParity`: the bits of `RDATA` are the data samples, and `PERR` is 0 exactly when the `t + 1`
samples hold an even number of ones (41_seq_in.md R115, derived there from R114). -/
def Obligations.ParityFlagIsOddSampleCount : Prop :=
  ∀ (t : BitVec 6) (s : State), s.dispatch.slot1 = .populated → 1 ≤ t.toNat → t.toNat ≤ 32 →
    ∃ u, exec (.readWithParity t) s = .next u ∧
      (∀ i, i < 32 → u.rdata.getLsbD i = (decide (i < t.toNat) && sampleAt s i)) ∧
      u.perr = (samples s (t.toNat + 1)).foldl (· ^^ ·) false ∧
      (u.perr = false ↔ (samples s (t.toNat + 1)).count true % 2 = 0)

/-- A parity mismatch changes nothing but the flag: two runs that differ in the parity sample alone give the same data
word, the one their data samples make, and the same pins and direction, one response each with that word, and the same events but for that sample's own record
(41_seq_in.md, section 2, R116). What `PAR` holds after the command is left open. -/
def Obligations.MismatchLeavesTheDataAlone : Prop :=
  ∀ (t : BitVec 6) (s : State) (bits rest : List Level) (p : Level),
    s.dispatch.slot1 = .populated → 1 ≤ t.toNat → t.toNat ≤ 32 → bits.length = t.toNat →
    ∃ u v : State,
      exec (.readWithParity t) { s with target := bits ++ p :: rest } = .next u ∧
      exec (.readWithParity t) { s with target := bits ++ (!p) :: rest } = .next v ∧
      u.rdata = wordOfSamples bits ∧
      v = { u with perr := !u.perr, par := v.par, trace := v.trace, responses := v.responses } ∧
      u.responses = s.responses ++ [⟨u.rdata, u.perr, u.status⟩] ∧
      v.responses = s.responses ++ [⟨u.rdata, !u.perr, u.status⟩] ∧
      v.trace.length = u.trace.length ∧
      (∀ k : Nat, v.trace[k]? ≠ u.trace[k]? →
        u.trace[k]? = some (Event.sample p) ∧ v.trace[k]? = some (Event.sample (!p)))

/-- From an idle-low start both readers take every sample with the clock low (41_seq_in.md, sections 1 and 2, R113 and
R118). -/
def Obligations.ReadersSampleWithTheClockLow : Prop :=
  ∀ (i : Instr) (s u : State), idleLow s = true → exec i s = .next u →
    samplesWhileLow s.pins (newEvents s u) = true

/-- What the readers leave unchanged: the profile, the dispatch table, the data latch, `STATUS`, the link and the
host's further commands, and for `read` `PERR` (10_state.md R40). That `WDATA`, and for `read` `PAR`, keep their
values is the model's choice for registers the spec calls dead between commands (log entry 9). -/
def Obligations.ReadersFrame : Prop :=
  ∀ (t : BitVec 6) (s u : State),
    (exec (.read t) s = .next u ∨ exec (.readWithParity t) s = .next u) →
    (u.timing = s.timing ∧ u.dispatch = s.dispatch ∧ u.dioO = s.dioO ∧ u.wdata = s.wdata ∧
      u.status = s.status ∧ u.link = s.link ∧ u.host = s.host) ∧
    (exec (.read t) s = .next u → u.perr = s.perr ∧ u.par = s.par)

/-! ## The bit-serial out engine -/

/-- `write`: encoding, refusals and the whole next state (42_seq_out.md R130). Observers and operand registers
follow log entries 8 and 9. -/
def Obligations.WriteClocksOutAWord : Prop :=
  ∀ (w : Word) (t : BitVec 6) (s : State),
    opCode (.write w t) = 0b010#3 ∧
    (s.dispatch.slot2 = .empty → exec (.write w t) s = .refused .notInitialised) ∧
    (s.dispatch.slot2 = .populated → (t.toNat = 0 ∨ 32 < t.toNat) →
      exec (.write w t) s = .refused .ticksOutOfRange) ∧
    (s.dispatch.slot2 = .populated → 1 ≤ t.toNat → t.toNat ≤ 32 →
      exec (.write w t) s = .next { s with
        op := 0b010#3
        ticks := t
        wdata := w
        dir := .drive
        dioOe := if s.dir = .drive then s.dioOe else .output
        clkO := false
        dioO := w.getLsbD (t.toNat - 1)
        shift := w >>> t.toNat
        bitidx := t
        phase := .idle
        trace := s.trace ++ turnaroundShape .drive s ++ writeShape s w t.toNat
        responses := s.responses ++ [⟨s.rdata, s.perr, s.status⟩] })

/-- Wire law of `write`: from a coherent idle-low start the rising edges present the low `t` bits in order, after the
turnaround's undriven edge if there is one, and the data line changes only while the clock is low
(42_seq_out.md R131, derived there from R130; the observer is decision D14). -/
def Obligations.WritePresentsBitsOnRisingEdges : Prop :=
  ∀ (w : Word) (t : BitVec 6) (s : State), s.dispatch.slot2 = .populated → 1 ≤ t.toNat → t.toNat ≤ 32 →
    coherent s = true → idleLow s = true →
    ∃ u, exec (.write w t) s = .next u ∧
      risingCapture s.pins (newEvents s u) =
        List.replicate (turns s (.write w t)) (.input, s.dioO) ++
          (List.range t.toNat).map (fun i => (.output, w.getLsbD i)) ∧
      dataChangesWhileLow s.pins (newEvents s u) = true ∧
      u.dioO = w.getLsbD (t.toNat - 1) ∧ u.clkO = false ∧ u.dir = .drive ∧ u.dioOe = .output

/-- `writeWithParity`: encoding, refusals and the whole next state (42_seq_out.md R134), the parity bit over the `t`
transmitted bits (R132). Observers and operand registers follow log entries 8 and 9. -/
def Obligations.WriteWithParityClocksOutAWord : Prop :=
  ∀ (w : Word) (t : BitVec 6) (s : State),
    opCode (.writeWithParity w t) = 0b011#3 ∧
    (s.dispatch.slot3 = .empty → exec (.writeWithParity w t) s = .refused .notInitialised) ∧
    (s.dispatch.slot3 = .populated → (t.toNat = 0 ∨ 32 < t.toNat) →
      exec (.writeWithParity w t) s = .refused .ticksOutOfRange) ∧
    (s.dispatch.slot3 = .populated → 1 ≤ t.toNat → t.toNat ≤ 32 →
      let par := popcount (w &&& BitVec.ofNat 32 (2 ^ t.toNat - 1)) % 2 == 1
      exec (.writeWithParity w t) s = .next { s with
        op := 0b011#3
        ticks := t
        wdata := w
        dir := .drive
        dioOe := if s.dir = .drive then s.dioOe else .output
        clkO := false
        dioO := par
        shift := w >>> t.toNat
        bitidx := t
        par := par
        phase := .idle
        trace := s.trace ++ turnaroundShape .drive s ++ writeParShape s w t.toNat
        responses := s.responses ++ [⟨s.rdata, s.perr, s.status⟩] })

/-- Wire law of `writeWithParity`: from a coherent idle-low start the rising edges present the low `t` bits in order
and then the parity bit, which is the xor of them (42_seq_out.md R135, derived there from R132 and R134; the
observer is decision D14). -/
def Obligations.WriteWithParityPresentsBitsAndParity : Prop :=
  ∀ (w : Word) (t : BitVec 6) (s : State), s.dispatch.slot3 = .populated → 1 ≤ t.toNat → t.toNat ≤ 32 →
    coherent s = true → idleLow s = true →
    ∃ u, exec (.writeWithParity w t) s = .next u ∧
      risingCapture s.pins (newEvents s u) =
        List.replicate (turns s (.writeWithParity w t)) (.input, s.dioO) ++
          (List.range t.toNat).map (fun i => (.output, w.getLsbD i)) ++
          [(.output, (List.range t.toNat).foldl (fun b i => b ^^ w.getLsbD i) false)] ∧
      u.dioO = (List.range t.toNat).foldl (fun b i => b ^^ w.getLsbD i) false ∧
      u.clkO = false ∧ u.dir = .drive ∧ u.dioOe = .output

/-- The parity bit of `writeWithParity` is the popcount of the `t` transmitted bits, modulo 2, computed before the first
event and driven last: even parity over data and parity bit, the readers' convention; where the operand has no 1
at or above bit `t` it is the popcount of the whole word (42_seq_out.md R132). -/
def Obligations.TransmittedParityIsMaskedPopcount : Prop :=
  ∀ (w : Word) (t : BitVec 6) (s : State), s.dispatch.slot3 = .populated → 1 ≤ t.toNat → t.toNat ≤ 32 →
    let p := popcount (w &&& BitVec.ofNat 32 (2 ^ t.toNat - 1)) % 2 == 1
    (∃ u, exec (.writeWithParity w t) s = .next u ∧
      ((newEvents s u).filter (fun e => e == .dio true || e == .dio false)).getLast? = some (.dio p)) ∧
    (∃ v, acceptStep (.writeWithParity w t) s = .next v ∧ v.par = p ∧ v.trace = s.trace) ∧
    (((List.range t.toNat).countP (fun i => w.getLsbD i) + p.toNat) % 2 = 0) ∧
    ((∀ i, t.toNat ≤ i → w.getLsbD i = false) → p = (popcount w % 2 == 1))

/-- The bits of the operand that have no effect on any event: from bit `t` for `write`, from bit `t + 1` for
`writeWithParity`, whose bit `t` stands on the line between edges (42_seq_out.md, sections 1 and 2, R131 and
R136). -/
def Obligations.HighOperandBitsAreNotSent : Prop :=
  ∀ (v w : Word) (t : BitVec 6) (s : State), s.dispatch.slot2 = .populated → s.dispatch.slot3 = .populated →
    1 ≤ t.toNat → t.toNat ≤ 32 →
    ((∀ i, i < t.toNat → v.getLsbD i = w.getLsbD i) →
      ∃ a b, exec (.write v t) s = .next a ∧ exec (.write w t) s = .next b ∧ newEvents s a = newEvents s b) ∧
    ((∀ i, i < t.toNat + 1 → v.getLsbD i = w.getLsbD i) →
      ∃ a b, exec (.writeWithParity v t) s = .next a ∧ exec (.writeWithParity w t) s = .next b ∧
        newEvents s a = newEvents s b)

/-- A word sent in two commands puts the same bits on the same rising edges as in one: the wire carries no record of
where a command ended (20_memory.md, section 2, R55). -/
def Obligations.SplitWriteSendsTheSameBits : Prop :=
  ∀ (w : Word) (t1 t2 t : BitVec 6) (s : State), s.dispatch.slot2 = .populated → coherent s = true →
    idleLow s = true → 1 ≤ t1.toNat → 1 ≤ t2.toNat → t.toNat = t1.toNat + t2.toNat → t.toNat ≤ 32 →
    ∃ a b c, exec (.write w t1) s = .next a ∧ exec (.write (w >>> t1.toNat) t2) a = .next b ∧
      exec (.write w t) s = .next c ∧
      risingCapture s.pins (newEvents s b) = risingCapture s.pins (newEvents s c)

/-- What the writers leave unchanged: the profile, the dispatch table, every result register, the link, and the
inputs (10_state.md R40). That `SMP`, and for `write` `PAR`, keep their values is the model's choice for registers
the spec calls dead between commands (log entry 9); the inputs are the model's fields (log entries 2, 7). -/
def Obligations.WritersFrame : Prop :=
  ∀ (w : Word) (t : BitVec 6) (s u : State),
    (exec (.write w t) s = .next u ∨ exec (.writeWithParity w t) s = .next u) →
    (u.timing = s.timing ∧ u.dispatch = s.dispatch ∧ u.rdata = s.rdata ∧ u.perr = s.perr ∧
      u.status = s.status ∧ u.smp = s.smp ∧ u.link = s.link ∧ u.host = s.host ∧ u.target = s.target ∧
      u.draws = s.draws) ∧
    (exec (.write w t) s = .next u → u.par = s.par)

/-! ## Loopback -/

/-- Round trip: on an initialised link, the bits `write w, t` presents, fed as the samples of `read t`, give back
`w and mask(t)` (42_seq_out.md R140, derived there; "direct electrical loopback" is decision D14). -/
def Obligations.WriteThenReadRoundTrip : Prop :=
  ∀ (w : Word) (t : BitVec 6) (s : State), initialised s = true → coherent s = true → idleLow s = true →
    1 ≤ t.toNat → t.toNat ≤ 32 →
    ∃ a b, exec (.write w t) s = .next a ∧
      exec (.read t) { a with target := drivenBits (risingCapture s.pins (newEvents s a)) } = .next b ∧
      b.rdata = w &&& BitVec.ofNat 32 (2 ^ t.toNat - 1)

/-- Round trip with parity: the presented bits of `writeWithParity w, t` fed to `readWithParity t` give back
`w and mask(t)` with `PERR = 0`, and with any one of them inverted `PERR = 1` (42_seq_out.md R140;
60_exceptions.md R201; decision D14). -/
def Obligations.ParityRoundTripDetectsOneError : Prop :=
  ∀ (w : Word) (t : BitVec 6) (s : State), initialised s = true → coherent s = true → idleLow s = true →
    1 ≤ t.toNat → t.toNat ≤ 32 →
    ∃ a, exec (.writeWithParity w t) s = .next a ∧
      let bits := drivenBits (risingCapture s.pins (newEvents s a))
      bits.length = t.toNat + 1 ∧
      (∃ b, exec (.readWithParity t) { a with target := bits } = .next b ∧
        b.rdata = w &&& BitVec.ofNat 32 (2 ^ t.toNat - 1) ∧ b.perr = false) ∧
      (∀ k, k ≤ t.toNat →
        ∃ b, exec (.readWithParity t) { a with target := bits.set k (!(bits.getD k false)) } = .next b ∧
          b.perr = true)

/-! ## Management commands -/

/-- `init` from every state: the whole next state. The four slots, `Float`, `STATUS` 0, no event; no pin, delay count or
other result register is touched, and it is never refused but for a nonzero `TICKS` field (44_dispatch_init.md
R166, R170). The one response added, and that `OP` and `TICKS` are loaded while the other operand and working
registers stay, are the model's choice (log entries 8 and 9). -/
def Obligations.InitPopulatesAndRecordsFloat : Prop :=
  (∀ (wdata : Word) (profile : BitVec 224), decode ⟨0b100000000#9, wdata, profile⟩ = .ok .init) ∧
  (∀ (t : BitVec 6) (wdata : Word) (profile : BitVec 224), t ≠ 0#6 →
    decode ⟨0b100#3 ++ t, wdata, profile⟩ = .error .reservedField) ∧
  (∀ s : State, exec .init s = .next { s with
    op := 0b100#3
    ticks := 0#6
    dispatch := ⟨.populated, .populated, .populated, .populated⟩
    dir := .float
    status := 0#1
    phase := .idle
    responses := s.responses ++ [⟨s.rdata, s.perr, 0#1⟩] })

/-- A repeated `init` while the pad drives records `Float` with the pad still an output: the state is no longer
coherent, and a following request for `Float` does nothing (44_dispatch_init.md, section 2, R169). -/
def Obligations.RepeatedInitLosesCoherence : Prop :=
  ∀ s : State, s.dir = .drive → s.dioOe = .output →
    ∃ u, exec .init s = .next u ∧ u.dir = .float ∧ u.dioOe = .output ∧ u.trace = s.trace ∧
      coherent u = false ∧ turnaround .float u = u

/-- `configureTiming`: the whole next state. All seven counts at once on a variable clock width link, no event, no pin, no
result register, no populated slot needed; refused on a fixed link, and for a nonzero `TICKS` field (43_timing.md
R154). The one response added, and that `OP` and `TICKS` are loaded while the other operand and working registers
stay, are the model's choice (log entries 8 and 9). -/
def Obligations.ConfigureTimingReplacesTheProfile : Prop :=
  (∀ (t : BitVec 6) (wdata : Word) (profile : BitVec 224), t ≠ 0#6 →
    decode ⟨0b101#3 ++ t, wdata, profile⟩ = .error .reservedField) ∧
  (∀ (p : Profile) (s : State), opCode (.configureTiming p) = 0b101#3 ∧
    (s.link.fixedClkWidth = true → exec (.configureTiming p) s = .refused .timingAbsent) ∧
    (s.link.fixedClkWidth = false → exec (.configureTiming p) s = .next { s with
      op := 0b101#3
      ticks := 0#6
      timing := p
      phase := .idle
      responses := s.responses ++ [⟨s.rdata, s.perr, s.status⟩] }))

/-! ## Traces, edges and waits -/

/-- The number of events of each command (45_microsequencer.md R188, derived there), and that none exceeds 139. -/
def Obligations.CommandEventCounts : Prop :=
  ∀ (i : Instr) (s u : State), exec i s = .next u →
    (newEvents s u).length = eventCount s i ∧ eventCount s i ≤ 139

/-- From an idle-low start every command makes the stated number of rising edges, as many falling edges, and ends
idle-low (20_memory.md R67, derived there; 70_reset_and_hazards.md R236). -/
def Obligations.CommandRisingEdges : Prop :=
  ∀ (i : Instr) (s u : State), idleLow s = true → exec i s = .next u →
    risingEdges s.pins (newEvents s u) = edgeCount s i ∧
    fallingEdges s.pins (newEvents s u) = edgeCount s i ∧ idleLow u = true

/-- Every step only adds to the trace, and the three latches are what replaying the added events gives: the trace
determines the wires (20_memory.md, sections 1 and 5, R52 and R66). -/
def Obligations.LatchesFollowTheTrace : Prop :=
  ∀ s u : State, step s = .next u →
    u.trace = s.trace ++ newEvents s u ∧ u.pins = s.pins.afterAll (newEvents s u)

/-- Which primitives each line receives: the readers never drive the data line, the writers never sample it, the pad's
mode is switched by a turnaround alone, and the management commands perform no event (20_memory.md, section 1,
R53). -/
def Obligations.PrimitivesByCommand : Prop :=
  ∀ (i : Instr) (s u : State), exec i s = .next u →
    (∀ v, .dio v ∈ newEvents s u → requests i = some .drive) ∧
    (∀ v, .sample v ∈ newEvents s u → requests i = some .float) ∧
    (∀ m, .mode m ∈ newEvents s u → ∃ d, requests i = some d ∧ d ≠ s.dir ∧ m = d.mode) ∧
    (isTransport i = false → newEvents s u = [])

/-- Every wait a command performs, in order, with its count; on a fixed clock width link there is none
(43_timing.md, section 1, R150 and R153; decision D7 places the first). -/
def Obligations.WaitsByCommand : Prop :=
  ∀ (i : Instr) (s u : State), exec i s = .next u →
    (newEvents s u).filter Event.isWait = waitsOf s i

/-- The delay engine loaded with `n` reaches zero after `n` of its link's units of `clk` cycles and not before
(43_timing.md, section 1, R151; the length of a unit is open, decision D12). -/
def Obligations.DelayEngineCountsUnits : Prop :=
  ∀ (l : Config.Link) (k : Nat) (n : DelayCount), 0 < l.delayUnitCycles →
    (delayDone (delayTicks l k (delayLoad n)) = true ↔ n.toNat * l.delayUnitCycles ≤ k)

/-- The length of a link's delay unit has no effect on any event, state or refusal: a step on a link with another unit
is the same step (43_timing.md, sections 1 and 2, R151 and R158; decision D12). -/
def Obligations.DelayUnitChangesNothing : Prop :=
  ∀ (n : Nat) (s : State),
    (∀ u, step s = .next u → step (withDelayUnit n s) = .next (withDelayUnit n u)) ∧
    (∀ r, step s = .refused r → step (withDelayUnit n s) = .refused r)

/-- The delay counts have no effect but on the waits: two links that differ in the profile alone step to the same
registers, pins, responses and pin trace, or are refused for the same reason (43_timing.md R157, derived there). -/
def Obligations.DelayCountsChangeOnlyWaits : Prop :=
  ∀ a b : State, sameButTiming a b →
    match step a, step b with
    | .next u, .next v => sameButTiming u v
    | .refused r, .refused q => r = q
    | _, _ => False

/-- The link's variant changes no result: a transport command gives the same registers, pins, responses and rising-edge
capture on both (00_scope.md, section 4, R7; 20_memory.md, section 5, R67). -/
def Obligations.VariantChangesNoResult : Prop :=
  ∀ (i : Instr) (s u v : State), isTransport i = true →
    exec i { s with link := { s.link with fixedClkWidth := true } } = .next u →
    exec i { s with link := { s.link with fixedClkWidth := false } } = .next v →
    { u with link := v.link, trace := v.trace } = v ∧
    risingCapture s.pins (newEvents s u) = risingCapture s.pins (newEvents s v)

/-! ## The sequencer -/

/-- The small-step machine and the operation rules agree: from every idle state, coherent or not, accepting a command
and performing phase steps until `Idle` gives the state its rule gives, within 140 steps, and both refuse the same
commands (45_microsequencer.md R187, derived there). -/
def Obligations.SequencerRunsTheOperationRules : Prop :=
  ∀ (i : Instr) (s : State), s.phase = .idle →
    (∀ u, exec i s = .next u → ∃ v, acceptStep i s = .next v ∧ runToIdle 140 v = u) ∧
    (∀ r, exec i s = .refused r → acceptStep i s = .refused r)

/-- The event-level invariant: clock level, pad and direction, operation and tick count agree with the phase, and every
event-level step keeps it, provided an idle block is given `init` only while the line is released (10_state.md, section 4, R38;
43_timing.md, section 1, R153; 70_reset_and_hazards.md, section 3, R232). -/
def Obligations.EventStepKeepsFlightInvariant : Prop :=
  ∀ s u : State, flightInv s = true → initOnlyReleased s = true → eventStep s = .next u →
    flightInv u = true

/-! ## Invariants and whole-machine rules -/

/-- Coherence and idle-low, and inside a command the flight invariant, are kept by every step, provided an idle
block is given `init` only while the line is released (10_state.md, section 4, R38; 70_reset_and_hazards.md, section 3, R232). -/
def Obligations.StepKeepsFlightInvariant : Prop :=
  ∀ s u : State, flightInv s = true → initOnlyReleased s = true → step s = .next u → flightInv u = true

/-- The dispatch table is all empty or all populated and `STATUS` is 0: kept by every step, with no condition
(10_state.md, sections 2 and 3, R23 and R30; 20_memory.md, section 4, R64). -/
def Obligations.StepKeepsTableWhole : Prop :=
  ∀ s u : State, tableInv s = true → step s = .next u → tableInv u = true

/-- Once populated the table is invariant, no command but `init` writes it, and no step changes the link's variant
(10_state.md, section 2, R23 and R24). -/
def Obligations.OnlyInitWritesTheTable : Prop :=
  (∀ s u : State, step s = .next u →
    u.link = s.link ∧ (initialised s = true → initialised u = true)) ∧
  (∀ (i : Instr) (s u : State), exec i s = .next u → i ≠ .init → u.dispatch = s.dispatch)

/-- The recorded direction is changed by a turnaround or by `init` alone, and the pad's mode by a turnaround alone
(10_state.md, section 2, R21; section 4, R35). -/
def Obligations.DirectionFollowsRequests : Prop :=
  ∀ (i : Instr) (s u : State), exec i s = .next u →
    (∀ d, requests i = some d → u.dir = d ∧ u.dioOe = (if d = s.dir then s.dioOe else d.mode)) ∧
    (requests i = none → u.dioOe = s.dioOe ∧ u.clkO = s.clkO ∧ u.dioO = s.dioO) ∧
    (i ≠ .init → requests i = none → u.dir = s.dir)

/-- Reset: idle, direction `Float`, every slot empty, the timing registers at `TIMING_RESET`, the latches at
`PIN_RESET`, whatever the open values are; a reset in mid-command leaves that state too
(70_reset_and_hazards.md, section 1, R220 and R221; decisions D10 and D11). That a reset keeps the configuration of a
link once built is the model's deduction from 10_state.md R24 and R39, R221 being silent on it (log entry 18,
DEDUCED). That the observer's lists start empty is log entry 8. The values `State.reset` takes for the open ones are the model's
choice (log entries 3 to 6), and no clause rests on them. -/
def Obligations.ResetLeavesTheStatedState : Prop :=
  ∀ (v : ResetValues) (s : State),
    (∀ u, u = State.resetOf v ∨ u = hardReset v s →
      u.phase = .idle ∧ u.dir = .float ∧ u.dispatch = ⟨.empty, .empty, .empty, .empty⟩ ∧
      u.timing = v.timing ∧ u.clkO = v.clkO ∧ u.dioO = v.dioO ∧ u.dioOe = v.dioOe ∧
      u.trace = [] ∧ u.responses = []) ∧
    (State.resetOf v).link = v.link ∧ (hardReset v s).link = s.link

/-- The invariants hold after reset: the flight invariant where the pins meet the launch premise, the table's where the
unspecified `STATUS` is 0, as the model's choice has it (70_reset_and_hazards.md, sections 1 and 2, R220 and R224;
log entries 4 and 6). -/
def Obligations.ResetMeetsTheInvariants : Prop :=
  (∀ v : ResetValues, v.clkO = false → v.dioOe = .input →
    launchPremise (State.resetOf v) = true ∧ flightInv (State.resetOf v) = true) ∧
  (∀ v : ResetValues, v.status = 0#1 → tableInv (State.resetOf v) = true) ∧
  flightInv State.reset = true ∧ tableInv State.reset = true

/-- A command within the host's duties always completes, and a ready link (idle, coherent, idle-low) is ready again
after it (00_scope.md, section 7, R17; 70_reset_and_hazards.md, sections 2 and 3). -/
def Obligations.ContractCommandsCompleteReady : Prop :=
  ∀ (s : State) (c : Command) (rest : List Command) (i : Instr), ready s = true → s.host = c :: rest →
    decode c = .ok i → withinContract s i = true →
    ∃ u, step s = .next u ∧ ready u = true ∧ u.host = rest

/-- Links share nothing: a step of one leaves every other as it was, and takes the link where its own step does
(60_exceptions.md, section 7, R212). -/
def Obligations.LinksShareNothing : Prop :=
  ∀ (k : Nat) (ls ms : Links), stepLink k ls = some (.next ms) →
    ms.length = ls.length ∧ (∀ j, j ≠ k → ms[j]? = ls[j]?) ∧
    ∃ s u, ls[k]? = some s ∧ step s = .next u ∧ ms[k]? = some u
end

