-- ==== Sys2Proof/Laws/Decode.lean ====
section
/-! SUPPORT. The fields of an encoded word and port, read back. -/

namespace Sys2Proof

/-- The `OP` field of a word laid out as `OP`, `TICKS`. -/
theorem opField_append (o : BitVec 3) (t : BitVec 6) : opField (o ++ t) = o := by
  apply BitVec.eq_of_getLsbD_eq
  intro i hi
  simp only [opField, BitVec.getLsbD_extractLsb', BitVec.getLsbD_append]
  simp [hi]

/-- The `TICKS` field of a word laid out as `OP`, `TICKS`. -/
theorem ticksField_append (o : BitVec 3) (t : BitVec 6) : ticksField (o ++ t) = t := by
  apply BitVec.eq_of_getLsbD_eq
  intro i hi
  simp only [ticksField, BitVec.getLsbD_extractLsb', BitVec.getLsbD_append]
  simp [hi]

/-- A profile put on the port is read back whole. -/
theorem profileOfPort_toPort (p : Profile) : profileOfPort (profileToPort p) = p := by
  rcases p with ⟨a, b, c, d, e, f, g⟩
  simp only [profileOfPort, profileToPort, profileCount, Profile.mk.injEq]
  refine ⟨?_, ?_, ?_, ?_, ?_, ?_, ?_⟩ <;>
  · apply BitVec.eq_of_getLsbD_eq
    intro i hi
    simp only [BitVec.getLsbD_extractLsb', BitVec.getLsbD_append, hi, decide_true, Bool.true_and]
    split_ifs <;> first | omega | exact congrArg _ (by omega)

end Sys2Proof
end

