-- ==== Sys2Proof/Laws/Flags.lean ====
section
/-! SUPPORT. The bits of a mask, and the parity as an exclusive or. -/

namespace Sys2Proof.Machine

/-- Bits of `mask(t)`. -/
theorem mask_getLsbD (t i : Nat) : (mask t).getLsbD i = (decide (i < 32) && decide (i < t)) := by
  rw [mask, BitVec.getLsbD_ofNat, Nat.testBit_two_pow_sub_one]

/-- A count modulo 2 is the exclusive or of what is counted. -/
theorem countP_odd (f : Nat → Bool) (l : List Nat) :
    ∀ b : Bool, l.foldl (fun b i => b ^^ f i) b = (b ^^ (l.countP f % 2 == 1)) := by
  induction l with
  | nil => intro b; cases b <;> rfl
  | cons x xs ih =>
    intro b
    rw [List.foldl_cons, ih, List.countP_cons]
    rcases Nat.mod_two_eq_zero_or_one (xs.countP f) with h | h <;>
      cases b <;> cases f x <;> simp [Nat.add_mod, h]

/-- The parity of a word is the exclusive or of its bits. -/
theorem oddOnes_eq_xor (w : Word) :
    oddOnes w = (List.range 32).foldl (fun b i => b ^^ w.getLsbD i) false := by
  rw [countP_odd]
  simp [oddOnes, popcount]

end Sys2Proof.Machine
end

