-- ==== Sys2Proof/Laws/State.lean ====
section
/-! SUPPORT. One lemma per field per update of the state, each true by definition, so that no later proof unfolds a
record update. -/

namespace Sys2Proof.Machine

variable (s : State)

@[simp] theorem emit_dir (e : Event) : (emit e s).dir = s.dir := rfl
@[simp] theorem emit_timing (e : Event) : (emit e s).timing = s.timing := rfl
@[simp] theorem emit_dispatch (e : Event) : (emit e s).dispatch = s.dispatch := rfl
@[simp] theorem emit_clkO (e : Event) : (emit e s).clkO = s.clkO := rfl
@[simp] theorem emit_dioO (e : Event) : (emit e s).dioO = s.dioO := rfl
@[simp] theorem emit_dioOe (e : Event) : (emit e s).dioOe = s.dioOe := rfl
@[simp] theorem emit_op (e : Event) : (emit e s).op = s.op := rfl
@[simp] theorem emit_ticks (e : Event) : (emit e s).ticks = s.ticks := rfl
@[simp] theorem emit_wdata (e : Event) : (emit e s).wdata = s.wdata := rfl
@[simp] theorem emit_shift (e : Event) : (emit e s).shift = s.shift := rfl
@[simp] theorem emit_bitidx (e : Event) : (emit e s).bitidx = s.bitidx := rfl
@[simp] theorem emit_par (e : Event) : (emit e s).par = s.par := rfl
@[simp] theorem emit_smp (e : Event) : (emit e s).smp = s.smp := rfl
@[simp] theorem emit_phase (e : Event) : (emit e s).phase = s.phase := rfl
@[simp] theorem emit_rdata (e : Event) : (emit e s).rdata = s.rdata := rfl
@[simp] theorem emit_perr (e : Event) : (emit e s).perr = s.perr := rfl
@[simp] theorem emit_status (e : Event) : (emit e s).status = s.status := rfl
@[simp] theorem emit_link (e : Event) : (emit e s).link = s.link := rfl
@[simp] theorem emit_host (e : Event) : (emit e s).host = s.host := rfl
@[simp] theorem emit_target (e : Event) : (emit e s).target = s.target := rfl
@[simp] theorem emit_draws (e : Event) : (emit e s).draws = s.draws := rfl
@[simp] theorem emit_trace (e : Event) : (emit e s).trace = s.trace ++ [e] := rfl
@[simp] theorem emit_responses (e : Event) : (emit e s).responses = s.responses := rfl

@[simp] theorem pinWriteClk_dir (l : Level) : (pinWriteClk l s).dir = s.dir := rfl
@[simp] theorem pinWriteClk_timing (l : Level) : (pinWriteClk l s).timing = s.timing := rfl
@[simp] theorem pinWriteClk_dispatch (l : Level) : (pinWriteClk l s).dispatch = s.dispatch := rfl
@[simp] theorem pinWriteClk_clkO (l : Level) : (pinWriteClk l s).clkO = l := rfl
@[simp] theorem pinWriteClk_dioO (l : Level) : (pinWriteClk l s).dioO = s.dioO := rfl
@[simp] theorem pinWriteClk_dioOe (l : Level) : (pinWriteClk l s).dioOe = s.dioOe := rfl
@[simp] theorem pinWriteClk_op (l : Level) : (pinWriteClk l s).op = s.op := rfl
@[simp] theorem pinWriteClk_ticks (l : Level) : (pinWriteClk l s).ticks = s.ticks := rfl
@[simp] theorem pinWriteClk_wdata (l : Level) : (pinWriteClk l s).wdata = s.wdata := rfl
@[simp] theorem pinWriteClk_shift (l : Level) : (pinWriteClk l s).shift = s.shift := rfl
@[simp] theorem pinWriteClk_bitidx (l : Level) : (pinWriteClk l s).bitidx = s.bitidx := rfl
@[simp] theorem pinWriteClk_par (l : Level) : (pinWriteClk l s).par = s.par := rfl
@[simp] theorem pinWriteClk_smp (l : Level) : (pinWriteClk l s).smp = s.smp := rfl
@[simp] theorem pinWriteClk_phase (l : Level) : (pinWriteClk l s).phase = s.phase := rfl
@[simp] theorem pinWriteClk_rdata (l : Level) : (pinWriteClk l s).rdata = s.rdata := rfl
@[simp] theorem pinWriteClk_perr (l : Level) : (pinWriteClk l s).perr = s.perr := rfl
@[simp] theorem pinWriteClk_status (l : Level) : (pinWriteClk l s).status = s.status := rfl
@[simp] theorem pinWriteClk_link (l : Level) : (pinWriteClk l s).link = s.link := rfl
@[simp] theorem pinWriteClk_host (l : Level) : (pinWriteClk l s).host = s.host := rfl
@[simp] theorem pinWriteClk_target (l : Level) : (pinWriteClk l s).target = s.target := rfl
@[simp] theorem pinWriteClk_draws (l : Level) : (pinWriteClk l s).draws = s.draws := rfl
@[simp] theorem pinWriteClk_trace (l : Level) : (pinWriteClk l s).trace = s.trace ++ [.clk l] := rfl
@[simp] theorem pinWriteClk_responses (l : Level) : (pinWriteClk l s).responses = s.responses := rfl

@[simp] theorem pinWriteDio_dir (v : Level) : (pinWriteDio v s).dir = s.dir := rfl
@[simp] theorem pinWriteDio_timing (v : Level) : (pinWriteDio v s).timing = s.timing := rfl
@[simp] theorem pinWriteDio_dispatch (v : Level) : (pinWriteDio v s).dispatch = s.dispatch := rfl
@[simp] theorem pinWriteDio_clkO (v : Level) : (pinWriteDio v s).clkO = s.clkO := rfl
@[simp] theorem pinWriteDio_dioO (v : Level) : (pinWriteDio v s).dioO = v := rfl
@[simp] theorem pinWriteDio_dioOe (v : Level) : (pinWriteDio v s).dioOe = s.dioOe := rfl
@[simp] theorem pinWriteDio_op (v : Level) : (pinWriteDio v s).op = s.op := rfl
@[simp] theorem pinWriteDio_ticks (v : Level) : (pinWriteDio v s).ticks = s.ticks := rfl
@[simp] theorem pinWriteDio_wdata (v : Level) : (pinWriteDio v s).wdata = s.wdata := rfl
@[simp] theorem pinWriteDio_shift (v : Level) : (pinWriteDio v s).shift = s.shift := rfl
@[simp] theorem pinWriteDio_bitidx (v : Level) : (pinWriteDio v s).bitidx = s.bitidx := rfl
@[simp] theorem pinWriteDio_par (v : Level) : (pinWriteDio v s).par = s.par := rfl
@[simp] theorem pinWriteDio_smp (v : Level) : (pinWriteDio v s).smp = s.smp := rfl
@[simp] theorem pinWriteDio_phase (v : Level) : (pinWriteDio v s).phase = s.phase := rfl
@[simp] theorem pinWriteDio_rdata (v : Level) : (pinWriteDio v s).rdata = s.rdata := rfl
@[simp] theorem pinWriteDio_perr (v : Level) : (pinWriteDio v s).perr = s.perr := rfl
@[simp] theorem pinWriteDio_status (v : Level) : (pinWriteDio v s).status = s.status := rfl
@[simp] theorem pinWriteDio_link (v : Level) : (pinWriteDio v s).link = s.link := rfl
@[simp] theorem pinWriteDio_host (v : Level) : (pinWriteDio v s).host = s.host := rfl
@[simp] theorem pinWriteDio_target (v : Level) : (pinWriteDio v s).target = s.target := rfl
@[simp] theorem pinWriteDio_draws (v : Level) : (pinWriteDio v s).draws = s.draws := rfl
@[simp] theorem pinWriteDio_trace (v : Level) : (pinWriteDio v s).trace = s.trace ++ [.dio v] := rfl
@[simp] theorem pinWriteDio_responses (v : Level) : (pinWriteDio v s).responses = s.responses := rfl

@[simp] theorem pinMode_dir (m : PinMode) : (pinMode m s).dir = s.dir := rfl
@[simp] theorem pinMode_timing (m : PinMode) : (pinMode m s).timing = s.timing := rfl
@[simp] theorem pinMode_dispatch (m : PinMode) : (pinMode m s).dispatch = s.dispatch := rfl
@[simp] theorem pinMode_clkO (m : PinMode) : (pinMode m s).clkO = s.clkO := rfl
@[simp] theorem pinMode_dioO (m : PinMode) : (pinMode m s).dioO = s.dioO := rfl
@[simp] theorem pinMode_dioOe (m : PinMode) : (pinMode m s).dioOe = m := rfl
@[simp] theorem pinMode_op (m : PinMode) : (pinMode m s).op = s.op := rfl
@[simp] theorem pinMode_ticks (m : PinMode) : (pinMode m s).ticks = s.ticks := rfl
@[simp] theorem pinMode_wdata (m : PinMode) : (pinMode m s).wdata = s.wdata := rfl
@[simp] theorem pinMode_shift (m : PinMode) : (pinMode m s).shift = s.shift := rfl
@[simp] theorem pinMode_bitidx (m : PinMode) : (pinMode m s).bitidx = s.bitidx := rfl
@[simp] theorem pinMode_par (m : PinMode) : (pinMode m s).par = s.par := rfl
@[simp] theorem pinMode_smp (m : PinMode) : (pinMode m s).smp = s.smp := rfl
@[simp] theorem pinMode_phase (m : PinMode) : (pinMode m s).phase = s.phase := rfl
@[simp] theorem pinMode_rdata (m : PinMode) : (pinMode m s).rdata = s.rdata := rfl
@[simp] theorem pinMode_perr (m : PinMode) : (pinMode m s).perr = s.perr := rfl
@[simp] theorem pinMode_status (m : PinMode) : (pinMode m s).status = s.status := rfl
@[simp] theorem pinMode_link (m : PinMode) : (pinMode m s).link = s.link := rfl
@[simp] theorem pinMode_host (m : PinMode) : (pinMode m s).host = s.host := rfl
@[simp] theorem pinMode_target (m : PinMode) : (pinMode m s).target = s.target := rfl
@[simp] theorem pinMode_draws (m : PinMode) : (pinMode m s).draws = s.draws := rfl
@[simp] theorem pinMode_trace (m : PinMode) : (pinMode m s).trace = s.trace ++ [.mode m] := rfl
@[simp] theorem pinMode_responses (m : PinMode) : (pinMode m s).responses = s.responses := rfl

@[simp] theorem loadOperands_dir (o : BitVec 3) (t : BitVec 6) : (loadOperands o t s).dir = s.dir := rfl
@[simp] theorem loadOperands_timing (o : BitVec 3) (t : BitVec 6) : (loadOperands o t s).timing = s.timing := rfl
@[simp] theorem loadOperands_dispatch (o : BitVec 3) (t : BitVec 6) : (loadOperands o t s).dispatch = s.dispatch := rfl
@[simp] theorem loadOperands_clkO (o : BitVec 3) (t : BitVec 6) : (loadOperands o t s).clkO = s.clkO := rfl
@[simp] theorem loadOperands_dioO (o : BitVec 3) (t : BitVec 6) : (loadOperands o t s).dioO = s.dioO := rfl
@[simp] theorem loadOperands_dioOe (o : BitVec 3) (t : BitVec 6) : (loadOperands o t s).dioOe = s.dioOe := rfl
@[simp] theorem loadOperands_op (o : BitVec 3) (t : BitVec 6) : (loadOperands o t s).op = o := rfl
@[simp] theorem loadOperands_ticks (o : BitVec 3) (t : BitVec 6) : (loadOperands o t s).ticks = t := rfl
@[simp] theorem loadOperands_wdata (o : BitVec 3) (t : BitVec 6) : (loadOperands o t s).wdata = s.wdata := rfl
@[simp] theorem loadOperands_shift (o : BitVec 3) (t : BitVec 6) : (loadOperands o t s).shift = s.shift := rfl
@[simp] theorem loadOperands_bitidx (o : BitVec 3) (t : BitVec 6) : (loadOperands o t s).bitidx = s.bitidx := rfl
@[simp] theorem loadOperands_par (o : BitVec 3) (t : BitVec 6) : (loadOperands o t s).par = s.par := rfl
@[simp] theorem loadOperands_smp (o : BitVec 3) (t : BitVec 6) : (loadOperands o t s).smp = s.smp := rfl
@[simp] theorem loadOperands_phase (o : BitVec 3) (t : BitVec 6) : (loadOperands o t s).phase = s.phase := rfl
@[simp] theorem loadOperands_rdata (o : BitVec 3) (t : BitVec 6) : (loadOperands o t s).rdata = s.rdata := rfl
@[simp] theorem loadOperands_perr (o : BitVec 3) (t : BitVec 6) : (loadOperands o t s).perr = s.perr := rfl
@[simp] theorem loadOperands_status (o : BitVec 3) (t : BitVec 6) : (loadOperands o t s).status = s.status := rfl
@[simp] theorem loadOperands_link (o : BitVec 3) (t : BitVec 6) : (loadOperands o t s).link = s.link := rfl
@[simp] theorem loadOperands_host (o : BitVec 3) (t : BitVec 6) : (loadOperands o t s).host = s.host := rfl
@[simp] theorem loadOperands_target (o : BitVec 3) (t : BitVec 6) : (loadOperands o t s).target = s.target := rfl
@[simp] theorem loadOperands_draws (o : BitVec 3) (t : BitVec 6) : (loadOperands o t s).draws = s.draws := rfl
@[simp] theorem loadOperands_trace (o : BitVec 3) (t : BitVec 6) : (loadOperands o t s).trace = s.trace := rfl
@[simp] theorem loadOperands_responses (o : BitVec 3) (t : BitVec 6) : (loadOperands o t s).responses = s.responses := rfl

@[simp] theorem loadWord_dir (w : Word) : (loadWord w s).dir = s.dir := rfl
@[simp] theorem loadWord_timing (w : Word) : (loadWord w s).timing = s.timing := rfl
@[simp] theorem loadWord_dispatch (w : Word) : (loadWord w s).dispatch = s.dispatch := rfl
@[simp] theorem loadWord_clkO (w : Word) : (loadWord w s).clkO = s.clkO := rfl
@[simp] theorem loadWord_dioO (w : Word) : (loadWord w s).dioO = s.dioO := rfl
@[simp] theorem loadWord_dioOe (w : Word) : (loadWord w s).dioOe = s.dioOe := rfl
@[simp] theorem loadWord_op (w : Word) : (loadWord w s).op = s.op := rfl
@[simp] theorem loadWord_ticks (w : Word) : (loadWord w s).ticks = s.ticks := rfl
@[simp] theorem loadWord_wdata (w : Word) : (loadWord w s).wdata = w := rfl
@[simp] theorem loadWord_shift (w : Word) : (loadWord w s).shift = s.shift := rfl
@[simp] theorem loadWord_bitidx (w : Word) : (loadWord w s).bitidx = s.bitidx := rfl
@[simp] theorem loadWord_par (w : Word) : (loadWord w s).par = s.par := rfl
@[simp] theorem loadWord_smp (w : Word) : (loadWord w s).smp = s.smp := rfl
@[simp] theorem loadWord_phase (w : Word) : (loadWord w s).phase = s.phase := rfl
@[simp] theorem loadWord_rdata (w : Word) : (loadWord w s).rdata = s.rdata := rfl
@[simp] theorem loadWord_perr (w : Word) : (loadWord w s).perr = s.perr := rfl
@[simp] theorem loadWord_status (w : Word) : (loadWord w s).status = s.status := rfl
@[simp] theorem loadWord_link (w : Word) : (loadWord w s).link = s.link := rfl
@[simp] theorem loadWord_host (w : Word) : (loadWord w s).host = s.host := rfl
@[simp] theorem loadWord_target (w : Word) : (loadWord w s).target = s.target := rfl
@[simp] theorem loadWord_draws (w : Word) : (loadWord w s).draws = s.draws := rfl
@[simp] theorem loadWord_trace (w : Word) : (loadWord w s).trace = s.trace := rfl
@[simp] theorem loadWord_responses (w : Word) : (loadWord w s).responses = s.responses := rfl

@[simp] theorem startLoop_dir (w : Word) : (startLoop w s).dir = s.dir := rfl
@[simp] theorem startLoop_timing (w : Word) : (startLoop w s).timing = s.timing := rfl
@[simp] theorem startLoop_dispatch (w : Word) : (startLoop w s).dispatch = s.dispatch := rfl
@[simp] theorem startLoop_clkO (w : Word) : (startLoop w s).clkO = s.clkO := rfl
@[simp] theorem startLoop_dioO (w : Word) : (startLoop w s).dioO = s.dioO := rfl
@[simp] theorem startLoop_dioOe (w : Word) : (startLoop w s).dioOe = s.dioOe := rfl
@[simp] theorem startLoop_op (w : Word) : (startLoop w s).op = s.op := rfl
@[simp] theorem startLoop_ticks (w : Word) : (startLoop w s).ticks = s.ticks := rfl
@[simp] theorem startLoop_wdata (w : Word) : (startLoop w s).wdata = s.wdata := rfl
@[simp] theorem startLoop_shift (w : Word) : (startLoop w s).shift = w := rfl
@[simp] theorem startLoop_bitidx (w : Word) : (startLoop w s).bitidx = 0 := rfl
@[simp] theorem startLoop_par (w : Word) : (startLoop w s).par = s.par := rfl
@[simp] theorem startLoop_smp (w : Word) : (startLoop w s).smp = s.smp := rfl
@[simp] theorem startLoop_phase (w : Word) : (startLoop w s).phase = s.phase := rfl
@[simp] theorem startLoop_rdata (w : Word) : (startLoop w s).rdata = s.rdata := rfl
@[simp] theorem startLoop_perr (w : Word) : (startLoop w s).perr = s.perr := rfl
@[simp] theorem startLoop_status (w : Word) : (startLoop w s).status = s.status := rfl
@[simp] theorem startLoop_link (w : Word) : (startLoop w s).link = s.link := rfl
@[simp] theorem startLoop_host (w : Word) : (startLoop w s).host = s.host := rfl
@[simp] theorem startLoop_target (w : Word) : (startLoop w s).target = s.target := rfl
@[simp] theorem startLoop_draws (w : Word) : (startLoop w s).draws = s.draws := rfl
@[simp] theorem startLoop_trace (w : Word) : (startLoop w s).trace = s.trace := rfl
@[simp] theorem startLoop_responses (w : Word) : (startLoop w s).responses = s.responses := rfl

@[simp] theorem shiftOut_dir : (shiftOut s).dir = s.dir := rfl
@[simp] theorem shiftOut_timing : (shiftOut s).timing = s.timing := rfl
@[simp] theorem shiftOut_dispatch : (shiftOut s).dispatch = s.dispatch := rfl
@[simp] theorem shiftOut_clkO : (shiftOut s).clkO = s.clkO := rfl
@[simp] theorem shiftOut_dioO : (shiftOut s).dioO = s.dioO := rfl
@[simp] theorem shiftOut_dioOe : (shiftOut s).dioOe = s.dioOe := rfl
@[simp] theorem shiftOut_op : (shiftOut s).op = s.op := rfl
@[simp] theorem shiftOut_ticks : (shiftOut s).ticks = s.ticks := rfl
@[simp] theorem shiftOut_wdata : (shiftOut s).wdata = s.wdata := rfl
@[simp] theorem shiftOut_shift : (shiftOut s).shift = shiftRight1 s.shift := rfl
@[simp] theorem shiftOut_bitidx : (shiftOut s).bitidx = s.bitidx := rfl
@[simp] theorem shiftOut_par : (shiftOut s).par = s.par := rfl
@[simp] theorem shiftOut_smp : (shiftOut s).smp = s.smp := rfl
@[simp] theorem shiftOut_phase : (shiftOut s).phase = s.phase := rfl
@[simp] theorem shiftOut_rdata : (shiftOut s).rdata = s.rdata := rfl
@[simp] theorem shiftOut_perr : (shiftOut s).perr = s.perr := rfl
@[simp] theorem shiftOut_status : (shiftOut s).status = s.status := rfl
@[simp] theorem shiftOut_link : (shiftOut s).link = s.link := rfl
@[simp] theorem shiftOut_host : (shiftOut s).host = s.host := rfl
@[simp] theorem shiftOut_target : (shiftOut s).target = s.target := rfl
@[simp] theorem shiftOut_draws : (shiftOut s).draws = s.draws := rfl
@[simp] theorem shiftOut_trace : (shiftOut s).trace = s.trace := rfl
@[simp] theorem shiftOut_responses : (shiftOut s).responses = s.responses := rfl

@[simp] theorem nextBit_dir : (nextBit s).dir = s.dir := rfl
@[simp] theorem nextBit_timing : (nextBit s).timing = s.timing := rfl
@[simp] theorem nextBit_dispatch : (nextBit s).dispatch = s.dispatch := rfl
@[simp] theorem nextBit_clkO : (nextBit s).clkO = s.clkO := rfl
@[simp] theorem nextBit_dioO : (nextBit s).dioO = s.dioO := rfl
@[simp] theorem nextBit_dioOe : (nextBit s).dioOe = s.dioOe := rfl
@[simp] theorem nextBit_op : (nextBit s).op = s.op := rfl
@[simp] theorem nextBit_ticks : (nextBit s).ticks = s.ticks := rfl
@[simp] theorem nextBit_wdata : (nextBit s).wdata = s.wdata := rfl
@[simp] theorem nextBit_shift : (nextBit s).shift = s.shift := rfl
@[simp] theorem nextBit_bitidx : (nextBit s).bitidx = s.bitidx + 1 := rfl
@[simp] theorem nextBit_par : (nextBit s).par = s.par := rfl
@[simp] theorem nextBit_smp : (nextBit s).smp = s.smp := rfl
@[simp] theorem nextBit_phase : (nextBit s).phase = s.phase := rfl
@[simp] theorem nextBit_rdata : (nextBit s).rdata = s.rdata := rfl
@[simp] theorem nextBit_perr : (nextBit s).perr = s.perr := rfl
@[simp] theorem nextBit_status : (nextBit s).status = s.status := rfl
@[simp] theorem nextBit_link : (nextBit s).link = s.link := rfl
@[simp] theorem nextBit_host : (nextBit s).host = s.host := rfl
@[simp] theorem nextBit_target : (nextBit s).target = s.target := rfl
@[simp] theorem nextBit_draws : (nextBit s).draws = s.draws := rfl
@[simp] theorem nextBit_trace : (nextBit s).trace = s.trace := rfl
@[simp] theorem nextBit_responses : (nextBit s).responses = s.responses := rfl

@[simp] theorem complete_dir : (complete s).dir = s.dir := rfl
@[simp] theorem complete_timing : (complete s).timing = s.timing := rfl
@[simp] theorem complete_dispatch : (complete s).dispatch = s.dispatch := rfl
@[simp] theorem complete_clkO : (complete s).clkO = s.clkO := rfl
@[simp] theorem complete_dioO : (complete s).dioO = s.dioO := rfl
@[simp] theorem complete_dioOe : (complete s).dioOe = s.dioOe := rfl
@[simp] theorem complete_op : (complete s).op = s.op := rfl
@[simp] theorem complete_ticks : (complete s).ticks = s.ticks := rfl
@[simp] theorem complete_wdata : (complete s).wdata = s.wdata := rfl
@[simp] theorem complete_shift : (complete s).shift = s.shift := rfl
@[simp] theorem complete_bitidx : (complete s).bitidx = s.bitidx := rfl
@[simp] theorem complete_par : (complete s).par = s.par := rfl
@[simp] theorem complete_smp : (complete s).smp = s.smp := rfl
@[simp] theorem complete_phase : (complete s).phase = .idle := rfl
@[simp] theorem complete_rdata : (complete s).rdata = s.rdata := rfl
@[simp] theorem complete_perr : (complete s).perr = s.perr := rfl
@[simp] theorem complete_status : (complete s).status = s.status := rfl
@[simp] theorem complete_link : (complete s).link = s.link := rfl
@[simp] theorem complete_host : (complete s).host = s.host := rfl
@[simp] theorem complete_target : (complete s).target = s.target := rfl
@[simp] theorem complete_draws : (complete s).draws = s.draws := rfl
@[simp] theorem complete_trace : (complete s).trace = s.trace := rfl
@[simp] theorem complete_responses : (complete s).responses = s.responses ++ [response s] := rfl

variable (v : ResetValues)

@[simp] theorem resetOf_dir : (State.resetOf v).dir = .float := rfl
@[simp] theorem resetOf_timing : (State.resetOf v).timing = v.timing := rfl
@[simp] theorem resetOf_dispatch : (State.resetOf v).dispatch = ⟨.empty, .empty, .empty, .empty⟩ := rfl
@[simp] theorem resetOf_clkO : (State.resetOf v).clkO = v.clkO := rfl
@[simp] theorem resetOf_dioO : (State.resetOf v).dioO = v.dioO := rfl
@[simp] theorem resetOf_dioOe : (State.resetOf v).dioOe = v.dioOe := rfl
@[simp] theorem resetOf_op : (State.resetOf v).op = v.op := rfl
@[simp] theorem resetOf_ticks : (State.resetOf v).ticks = v.ticks := rfl
@[simp] theorem resetOf_wdata : (State.resetOf v).wdata = v.wdata := rfl
@[simp] theorem resetOf_shift : (State.resetOf v).shift = v.shift := rfl
@[simp] theorem resetOf_bitidx : (State.resetOf v).bitidx = v.bitidx := rfl
@[simp] theorem resetOf_par : (State.resetOf v).par = v.par := rfl
@[simp] theorem resetOf_smp : (State.resetOf v).smp = v.smp := rfl
@[simp] theorem resetOf_phase : (State.resetOf v).phase = .idle := rfl
@[simp] theorem resetOf_rdata : (State.resetOf v).rdata = v.rdata := rfl
@[simp] theorem resetOf_perr : (State.resetOf v).perr = v.perr := rfl
@[simp] theorem resetOf_status : (State.resetOf v).status = v.status := rfl
@[simp] theorem resetOf_link : (State.resetOf v).link = v.link := rfl
@[simp] theorem resetOf_host : (State.resetOf v).host = [] := rfl
@[simp] theorem resetOf_target : (State.resetOf v).target = [] := rfl
@[simp] theorem resetOf_draws : (State.resetOf v).draws = 0 := rfl
@[simp] theorem resetOf_trace : (State.resetOf v).trace = [] := rfl
@[simp] theorem resetOf_responses : (State.resetOf v).responses = [] := rfl

@[simp] theorem hardReset_dir : (hardReset v s).dir = .float := rfl
@[simp] theorem hardReset_timing : (hardReset v s).timing = v.timing := rfl
@[simp] theorem hardReset_dispatch : (hardReset v s).dispatch = ⟨.empty, .empty, .empty, .empty⟩ := rfl
@[simp] theorem hardReset_clkO : (hardReset v s).clkO = v.clkO := rfl
@[simp] theorem hardReset_dioO : (hardReset v s).dioO = v.dioO := rfl
@[simp] theorem hardReset_dioOe : (hardReset v s).dioOe = v.dioOe := rfl
@[simp] theorem hardReset_op : (hardReset v s).op = v.op := rfl
@[simp] theorem hardReset_ticks : (hardReset v s).ticks = v.ticks := rfl
@[simp] theorem hardReset_wdata : (hardReset v s).wdata = v.wdata := rfl
@[simp] theorem hardReset_shift : (hardReset v s).shift = v.shift := rfl
@[simp] theorem hardReset_bitidx : (hardReset v s).bitidx = v.bitidx := rfl
@[simp] theorem hardReset_par : (hardReset v s).par = v.par := rfl
@[simp] theorem hardReset_smp : (hardReset v s).smp = v.smp := rfl
@[simp] theorem hardReset_phase : (hardReset v s).phase = .idle := rfl
@[simp] theorem hardReset_rdata : (hardReset v s).rdata = v.rdata := rfl
@[simp] theorem hardReset_perr : (hardReset v s).perr = v.perr := rfl
@[simp] theorem hardReset_status : (hardReset v s).status = v.status := rfl
@[simp] theorem hardReset_link : (hardReset v s).link = s.link := rfl
@[simp] theorem hardReset_host : (hardReset v s).host = s.host := rfl
@[simp] theorem hardReset_target : (hardReset v s).target = s.target := rfl
@[simp] theorem hardReset_draws : (hardReset v s).draws = s.draws := rfl
@[simp] theorem hardReset_trace : (hardReset v s).trace = [] := rfl
@[simp] theorem hardReset_responses : (hardReset v s).responses = [] := rfl

end Sys2Proof.Machine
end

