-- ==== Sys2Proof/Laws/Ops.lean ====
section
/-! SUPPORT. For each shared operation, one lemma that says everything it does. -/

namespace Sys2Proof.Machine

/-- A wait changes nothing but the trace. -/
theorem wait_eq (n : DelayCount) (s : State) :
    wait n s = { s with trace := s.trace ++ waitShape s.link n } := by
  unfold wait waitShape
  split <;> simp [emit]

/-- A set phase leaves the clock high; on a fixed clock width link it is two events. -/
theorem raiseClkTwiceIfFixed_eq (s : State) :
    raiseClkTwiceIfFixed s = { s with clkO := true, trace := s.trace ++ setShape s.link } := by
  unfold raiseClkTwiceIfFixed setShape
  split <;> simp [pinWriteClk, emit]

/-- Taking an answer moves on in the target's list, or in the free values where that list is empty. -/
theorem takeAnswer_eq (s : State) :
    takeAnswer s =
      { s with target := s.target.tail, draws := s.draws + (if s.target = [] then 1 else 0) } := by
  cases s with | mk _ _ _ _ _ _ _ _ _ _ _ _ _ _ _ _ _ _ _ target => cases target <;> rfl

/-- A data sample: one event, the answer in `SMP`. -/
theorem sampleToSmp_eq (s : State) :
    sampleToSmp s = { s with smp := answer s, trace := s.trace ++ [.sample (answer s)],
                             target := s.target.tail,
                             draws := s.draws + (if s.target = [] then 1 else 0) } := by
  simp [sampleToSmp, pinRead, emit, takeAnswer_eq]

/-- A parity sample: one event, the answer in `PAR`. -/
theorem sampleToPar_eq (s : State) :
    sampleToPar s = { s with par := answer s, trace := s.trace ++ [.sample (answer s)],
                             target := s.target.tail,
                             draws := s.draws + (if s.target = [] then 1 else 0) } := by
  simp [sampleToPar, pinRead, emit, takeAnswer_eq]

/-- The accumulate step sets bit `BITIDX` of `SHIFT` if the sample was 1. -/
theorem accumulate_eq (s : State) :
    accumulate s =
      { s with shift := if s.smp then setBit s.shift s.bitidx.toNat else s.shift } := by
  cases s with | mk _ _ _ _ _ _ _ _ _ _ _ _ smp => cases smp <;> rfl

/-- The turnaround: nothing if the direction is the recorded one; else the pulse, the pad's mode and the record. -/
theorem turnaround_eq (d : Direction) (s : State) :
    turnaround d s =
      if d = s.dir then s
      else { s with dir := d, clkO := false, dioOe := d.mode, trace := s.trace ++ turnaroundShape d s } := by
  unfold turnaround
  split
  · rfl
  · cases d <;> cases h : s.dir <;>
      simp_all [turnaroundPulse, wait_eq, raiseClkTwiceIfFixed_eq, pinWriteClk, pinMode, emit,
        Direction.mode, turnaroundShape, pulseShape]

/-- A request for the recorded direction has no events. -/
theorem turnaroundShape_same {d : Direction} {s : State} (h : d = s.dir) : turnaroundShape d s = [] := by
  subst h
  unfold turnaroundShape
  cases s.dir <;> rfl

/-- The turnaround field by field, whether or not the direction changes. -/
theorem turnaround_fields (d : Direction) (s : State) :
    turnaround d s = { s with
      dir := d
      clkO := if d = s.dir then s.clkO else false
      dioOe := if d = s.dir then s.dioOe else d.mode
      trace := s.trace ++ turnaroundShape d s } := by
  rw [turnaround_eq]
  split
  · next h =>
    rw [turnaroundShape_same h]
    cases s
    simp_all
  · rfl

/-- The samples depend on the target's list and the count of free answers alone. -/
theorem sampleAt_congr {s u : State} (ht : u.target = s.target) (hd : u.draws = s.draws) (k : Nat) :
    sampleAt u k = sampleAt s k := by
  simp [sampleAt, ht, hd]

/-- The samples depend on the target's list and the count of free answers alone. -/
theorem samples_congr {s u : State} (ht : u.target = s.target) (hd : u.draws = s.draws) (n : Nat) :
    samples u n = samples s n := by
  simp [samples, sampleAt, ht, hd]

/-- The events added by a step that appends `es`. -/
theorem newEvents_of_append {s u : State} {es : List Event} (h : u.trace = s.trace ++ es) :
    newEvents s u = es := by
  simp [newEvents, h]

/-- The next answer is sample 0. -/
theorem answer_eq_sampleAt (s : State) : answer s = sampleAt s 0 := by
  unfold answer sampleAt
  cases s.target <;> simp

/-- After an answer is taken, sample `k` is what sample `k + 1` was. -/
theorem sampleAt_tail (s : State) (k : Nat) (u : State) (ht : u.target = s.target.tail)
    (hd : u.draws = s.draws + (if s.target = [] then 1 else 0)) :
    sampleAt u k = sampleAt s (k + 1) := by
  unfold sampleAt
  rw [ht, hd]
  cases s.target with
  | nil => simp; congr 1; omega
  | cons v rest => simp

/-- The samples of `n + 1` ticks: the next answer, then the samples after it. -/
theorem samples_succ (s : State) (n : Nat) (u : State) (ht : u.target = s.target.tail)
    (hd : u.draws = s.draws + (if s.target = [] then 1 else 0)) :
    samples s (n + 1) = answer s :: samples u n := by
  simp [samples, List.range_succ_eq_map, answer_eq_sampleAt, Function.comp_def,
    sampleAt_tail s _ u ht hd]

/-- The acceptance checks of a transport command, in their order. -/
theorem admitTransport_eq_next {k : BitVec 2} {t : BitVec 6} {run : State → State} {s u : State} :
    admitTransport k t run s = .next u ↔
      s.dispatch.slot k = .populated ∧ ticksInRange t = true ∧ run s = u := by
  unfold admitTransport
  cases h : s.dispatch.slot k <;> cases h2 : ticksInRange t <;> simp

/-- No transport command faults. -/
theorem admitTransport_ne_fault {k : BitVec 2} {t : BitVec 6} {run : State → State} {s : State} {f : Fault} :
    admitTransport k t run s ≠ .fault f := nomatch f

/-- Why a transport command is refused. -/
theorem admitTransport_eq_refused {k : BitVec 2} {t : BitVec 6} {run : State → State} {s : State} {r : Refusal} :
    admitTransport k t run s = .refused r ↔
      (s.dispatch.slot k = .empty ∧ r = .notInitialised) ∨
      (s.dispatch.slot k = .populated ∧ ticksInRange t = false ∧ r = .ticksOutOfRange) := by
  unfold admitTransport
  cases h : s.dispatch.slot k <;> cases h2 : ticksInRange t <;> simp [eq_comm]

/-- `configureTiming` is carried out on a variable clock width link alone. -/
theorem admitTiming_eq_next {run : State → State} {s u : State} :
    admitTiming run s = .next u ↔ s.link.fixedClkWidth = false ∧ run s = u := by
  unfold admitTiming
  cases s.link.fixedClkWidth <;> simp

/-- A loop's invariant: kept by the body, so kept by the loop. -/
theorem times_induct (P : State → Prop) (f : State → State) (h : ∀ s, P s → P (f s)) :
    ∀ n s, P s → P (times f n s)
  | 0, _, hs => hs
  | n + 1, s, hs => times_induct P f h n (f s) (h s hs)

/-- A loop of `n + 1` ticks ends with its last tick. -/
theorem times_succ_last (f : State → State) : ∀ n s, times f (n + 1) s = f (times f n s)
  | 0, _ => rfl
  | n + 1, s => times_succ_last f n (f s)

/-- The range check is the one well-formedness makes. -/
theorem ticksInRange_iff (t : BitVec 6) : ticksInRange t = true ↔ 1 ≤ t.toNat ∧ t.toNat ≤ 32 := by
  simp [ticksInRange]

end Sys2Proof.Machine
end

