-- ==== Sys2Proof/Laws/Loops.lean ====
section
/-! SUPPORT. What one tick of each bit loop does, what its loop of `n` ticks leaves, and the lemmas about samples and
assembled words they rest on. -/

namespace Sys2Proof.Machine

/-- One tick of `read`. -/
theorem readTick_eq (s : State) :
    readTick s = { s with
      smp := answer s, clkO := false
      shift := if answer s then setBit s.shift s.bitidx.toNat else s.shift
      bitidx := s.bitidx + 1
      target := s.target.tail, draws := s.draws + (if s.target = [] then 1 else 0)
      trace := s.trace ++ readTickShape s (answer s) } := by
  simp [readTick, sampleToSmp_eq, accumulate_eq, wait_eq, pinWriteClk, emit, nextBit, readTickShape]

/-- A clock write does not change the next answer. -/
theorem answer_pinWriteClk (l : Level) (s : State) : answer { s with clkO := l, trace := s.trace ++ [.clk l] } = answer s := rfl

/-- One data tick of `readWithParity`. -/
theorem readParTick_eq (s : State) :
    readParTick s = { s with
      smp := answer s, clkO := true
      shift := if answer s then setBit s.shift s.bitidx.toNat else s.shift
      bitidx := s.bitidx + 1
      target := s.target.tail, draws := s.draws + (if s.target = [] then 1 else 0)
      trace := s.trace ++ readParTickShape s (answer s) } := by
  simp [readParTick, sampleToSmp_eq, accumulate_eq, wait_eq, pinWriteClk, emit, nextBit, readParTickShape, answer_pinWriteClk]

/-- The parity cycle of `readWithParity`. -/
theorem readParEnd_eq (s : State) :
    readParEnd s = { s with
      par := answer s, clkO := false
      target := s.target.tail, draws := s.draws + (if s.target = [] then 1 else 0)
      trace := s.trace ++ readParEndShape s (answer s) } := by
  simp [readParEnd, sampleToPar_eq, wait_eq, pinWriteClk, emit, readParEndShape, answer_pinWriteClk]

/-- One tick of `write`. -/
theorem writeTick_eq (s : State) :
    writeTick s = { s with
      clkO := true, dioO := s.shift.getLsbD 0, shift := s.shift >>> 1, bitidx := s.bitidx + 1
      trace := s.trace ++ writeTickShape s s.shift 0 } := by
  simp [writeTick, driveBit, wait_eq, pinWriteClk, pinWriteDio, shiftOut, shiftRight1, emit, nextBit, writeTickShape]

/-- One data tick of `writeWithParity`. -/
theorem writeParTick_eq (s : State) :
    writeParTick s = { s with
      clkO := false, dioO := s.shift.getLsbD 1, shift := s.shift >>> 1, bitidx := s.bitidx + 1
      trace := s.trace ++ writeParTickShape s s.shift 0 } := by
  simp [writeParTick, driveBit, wait_eq, pinWriteClk, pinWriteDio, shiftOut, shiftRight1, emit, nextBit, writeParTickShape]

/-- The parity cycle of `writeWithParity`. -/
theorem writeParEnd_eq (s : State) :
    writeParEnd s = { s with
      clkO := false, dioO := s.par, trace := s.trace ++ writeParEndShape s s.par } := by
  simp [writeParEnd, wait_eq, raiseClkTwiceIfFixed_eq, pinWriteClk, pinWriteDio, emit, writeParEndShape]

/-- After `n` answers have been taken, the next one is sample `n`. -/
theorem answer_after (s u : State) (n : Nat) (ht : u.target = s.target.drop n)
    (hd : u.draws = s.draws + (n - s.target.length)) : answer u = sampleAt s n := by
  rw [answer_eq_sampleAt]
  unfold sampleAt
  rw [ht, hd]
  by_cases h : n < s.target.length
  · simp [h]
  · simp [h]

/-- There are `n` samples in the next `n`. -/
theorem samples_length (s : State) (n : Nat) : (samples s n).length = n := by simp [samples]

/-- One more tick takes one more sample. -/
theorem samples_succ_last (s : State) (n : Nat) : samples s (n + 1) = samples s n ++ [sampleAt s n] := by
  simp [samples, List.range_succ]

/-- Sample `k` of the next `n`. -/
theorem samples_getElem? (s : State) (n k : Nat) :
    (samples s n)[k]? = if k < n then some (sampleAt s k) else none := by
  unfold samples
  split <;> simp_all

/-- Bit `i` of the sum is sample `i`. -/
theorem bitSum_testBit (bs : List Level) : ∀ i, (bitSum bs).testBit i = bs.getD i false := by
  induction bs with
  | nil => intro i; simp [bitSum]
  | cons b bs ih =>
    intro i
    cases i with
    | zero => cases b <;> simp [bitSum, Nat.testBit_zero]
    | succ i =>
      have : (b.toNat + 2 * bitSum bs) / 2 = bitSum bs := by cases b <;> simp; omega
      rw [bitSum, Nat.testBit_succ, this, ih]
      simp

/-- Bit `i` of the assembled word is sample `i`. -/
theorem wordOfSamples_getLsbD (bs : List Level) (i : Nat) :
    (wordOfSamples bs).getLsbD i = (decide (i < 32) && bs.getD i false) := by
  rw [wordOfSamples, BitVec.getLsbD_ofNat, bitSum_testBit]

/-- The bits of a word with one more bit set. -/
theorem setBit_getLsbD (r : Word) (k i : Nat) :
    (setBit r k).getLsbD i = (r.getLsbD i || (decide (i < 32) && decide (i = k))) := by
  unfold setBit
  rw [BitVec.getLsbD_or, BitVec.getLsbD_shiftLeft]
  by_cases h : i < k
  · have : i ≠ k := by omega
    simp [h, this]
  · by_cases h2 : i = k
    · subst h2; simp
    · have : ¬ (i - k = 0) := by omega
      simp [h, h2, BitVec.getLsbD_one, this]

/-- Accumulating sample `n` as bit `n` extends the assembled word by that sample. -/
theorem accumulate_sample (bs : List Level) (b : Level) :
    (if b then setBit (wordOfSamples bs) bs.length else wordOfSamples bs) = wordOfSamples (bs ++ [b]) := by
  have key : ∀ i, (bs ++ [b]).getD i false = if i = bs.length then b else bs.getD i false := by
    intro i
    rcases Nat.lt_trichotomy i bs.length with h | h | h
    · simp [List.getElem?_append_left h, h.ne]
    · simp [h]
    · have h2 : i ≠ bs.length := h.ne'
      rw [List.getD_eq_default _ _ (by simp; omega), List.getD_eq_default _ _ (by omega), if_neg h2]
  apply BitVec.eq_of_getLsbD_eq
  intro i hi
  rw [wordOfSamples_getLsbD, key]
  cases b
  · rw [if_neg (by decide), wordOfSamples_getLsbD]
    split
    · next h => simp [h]
    · rfl
  · rw [if_pos rfl, setBit_getLsbD, wordOfSamples_getLsbD]
    split
    · next h => simp [h, h ▸ hi]
    · next h => simp [h]

/-- Counting a tick. -/
theorem ofNat_succ (n : Nat) : BitVec.ofNat 6 n + 1#6 = BitVec.ofNat 6 (n + 1) := by
  rw [BitVec.ofNat_add]

/-- One more tick of `read` adds its events. -/
theorem readShape_snoc (s : State) (bs : List Level) (b : Level) :
    readShape s (bs ++ [b]) = readShape s bs ++ readTickShape s b := by simp [readShape]

/-- `n` ticks of `read`. -/
theorem times_readTick_eq (s : State) (h0 : s.shift = 0#32) (h1 : s.bitidx = 0#6) (n : Nat) (hn : n ≤ 32) :
    times readTick n s = { s with
      smp := if n = 0 then s.smp else sampleAt s (n - 1)
      clkO := if n = 0 then s.clkO else false
      shift := wordOfSamples (samples s n)
      bitidx := BitVec.ofNat 6 n
      target := s.target.drop n, draws := s.draws + (n - s.target.length)
      trace := s.trace ++ readShape s (samples s n) } := by
  induction n with
  | zero =>
    cases s
    simp_all [times, samples, readShape, wordOfSamples, bitSum]
  | succ n ih =>
    rw [times_succ_last, ih (by omega), readTick_eq]
    have ha : answer { s with
        smp := if n = 0 then s.smp else sampleAt s (n - 1), clkO := if n = 0 then s.clkO else false
        shift := wordOfSamples (samples s n), bitidx := BitVec.ofNat 6 n
        target := s.target.drop n, draws := s.draws + (n - s.target.length)
        trace := s.trace ++ readShape s (samples s n) } = sampleAt s n := answer_after s _ n rfl rfl
    have hb : (BitVec.ofNat 6 n).toNat = (samples s n).length := by
      simp [samples_length]; omega
    simp only [ha, hb, accumulate_sample, samples_succ_last, readShape_snoc]
    simp [readTickShape]
    exact ⟨ofNat_succ n, by split <;> omega⟩

/-- One more tick of `readWithParity` adds its events. -/
theorem readParShape_snoc (s : State) (bs : List Level) (b : Level) :
    (bs ++ [b]).flatMap (readParTickShape s) = bs.flatMap (readParTickShape s) ++ readParTickShape s b := by simp

/-- `n` data ticks of `readWithParity`. -/
theorem times_readParTick_eq (s : State) (h0 : s.shift = 0#32) (h1 : s.bitidx = 0#6) (n : Nat) (hn : n ≤ 32) :
    times readParTick n s = { s with
      smp := if n = 0 then s.smp else sampleAt s (n - 1)
      clkO := if n = 0 then s.clkO else true
      shift := wordOfSamples (samples s n)
      bitidx := BitVec.ofNat 6 n
      target := s.target.drop n, draws := s.draws + (n - s.target.length)
      trace := s.trace ++ (samples s n).flatMap (readParTickShape s) } := by
  induction n with
  | zero =>
    cases s
    simp_all [times, samples, wordOfSamples, bitSum]
  | succ n ih =>
    rw [times_succ_last, ih (by omega), readParTick_eq]
    have ha : answer { s with
        smp := if n = 0 then s.smp else sampleAt s (n - 1), clkO := if n = 0 then s.clkO else true
        shift := wordOfSamples (samples s n), bitidx := BitVec.ofNat 6 n
        target := s.target.drop n, draws := s.draws + (n - s.target.length)
        trace := s.trace ++ (samples s n).flatMap (readParTickShape s) } = sampleAt s n :=
      answer_after s _ n rfl rfl
    have hb : (BitVec.ofNat 6 n).toNat = (samples s n).length := by
      simp [samples_length]; omega
    simp only [ha, hb, accumulate_sample, samples_succ_last, readParShape_snoc]
    simp [readParTickShape]
    exact ⟨ofNat_succ n, by split <;> omega⟩

/-- Bit 0 of the shifted word is the bit of the tick. -/
theorem writeTickShape_shift (s : State) (w : Word) (n : Nat) :
    writeTickShape s (w >>> n) 0 = writeTickShape s w n := by
  simp [writeTickShape]

/-- Bit 1 of the shifted word is the bit after the tick's. -/
theorem writeParTickShape_shift (s : State) (w : Word) (n : Nat) :
    writeParTickShape s (w >>> n) 0 = writeParTickShape s w n := by
  simp [writeParTickShape]

/-- `n` ticks of `write`. -/
theorem times_writeTick_eq (s : State) (w : Word) (h0 : s.shift = w) (h1 : s.bitidx = 0#6) (n : Nat) :
    times writeTick n s = { s with
      clkO := if n = 0 then s.clkO else true
      dioO := if n = 0 then s.dioO else w.getLsbD (n - 1)
      shift := w >>> n
      bitidx := BitVec.ofNat 6 n
      trace := s.trace ++ (List.range n).flatMap (writeTickShape s w) } := by
  induction n with
  | zero =>
    cases s
    simp_all [times]
  | succ n ih =>
    rw [times_succ_last, ih, writeTick_eq]
    simp only [writeTickShape_shift, List.range_succ, List.flatMap_append]
    simp [writeTickShape, BitVec.shiftRight_add, ofNat_succ]

/-- `n` data ticks of `writeWithParity`. -/
theorem times_writeParTick_eq (s : State) (w : Word) (h0 : s.shift = w) (h1 : s.bitidx = 0#6) (n : Nat) :
    times writeParTick n s = { s with
      clkO := if n = 0 then s.clkO else false
      dioO := if n = 0 then s.dioO else w.getLsbD n
      shift := w >>> n
      bitidx := BitVec.ofNat 6 n
      trace := s.trace ++ (List.range n).flatMap (writeParTickShape s w) } := by
  induction n with
  | zero =>
    cases s
    simp_all [times]
  | succ n ih =>
    rw [times_succ_last, ih, writeParTick_eq]
    simp only [writeParTickShape_shift, List.range_succ, List.flatMap_append]
    simp [writeParTickShape, BitVec.shiftRight_add, ofNat_succ]
end Sys2Proof.Machine
end

