-- ==== Sys2Proof/Laws/PerInstr.lean ====
section
/-! SUPPORT. Per-command facts about the syntax: the word the encoder gives a command selects that command's row of
spec/opcode_table.json (spec/30_encoding.md, section 2). -/

namespace Sys2Proof.Laws.RowMatch

/-- The encoded word selects the row of its command. -/
def Statement (i : Instr) : Prop := (rowOf i).selects (encode i).word = true

theorem read (ticks : BitVec 6) : Statement (.read ticks) := by
  unfold Statement; revert ticks; decide

theorem readWithParity (ticks : BitVec 6) : Statement (.readWithParity ticks) := by
  unfold Statement; revert ticks; decide

theorem write (word : Word) (ticks : BitVec 6) : Statement (.write word ticks) := by
  have h : ∀ t : BitVec 6, (rowOf (.write 0 t)).selects (encode (.write 0 t)).word = true := by decide
  exact h ticks

theorem writeWithParity (word : Word) (ticks : BitVec 6) : Statement (.writeWithParity word ticks) := by
  have h : ∀ t : BitVec 6,
    (rowOf (.writeWithParity 0 t)).selects (encode (.writeWithParity 0 t)).word = true := by decide
  exact h ticks

theorem init : Statement .init := by unfold Statement; decide

theorem configureTiming (profile : Profile) : Statement (.configureTiming profile) := by
  have h : (⟨0x140#9, 0x1FF#9⟩ : Row).selects (0b101#3 ++ 0#6) = true := by decide
  exact h

end Sys2Proof.Laws.RowMatch
end

