-- ==== Sys2Proof/Laws/Sequencer.lean ====
section
/-! SUPPORT. One equation per phase of the sequencer. -/

namespace Sys2Proof.Machine

variable {s : State}

/-- Nothing is performed in `Idle`. -/
theorem phaseStep_idle (h : s.phase = .idle) : phaseStep s = s := by
  simp [phaseStep, h]

theorem phaseStep_taCheck (h : s.phase = .taCheck) :
    phaseStep s = (
      if requestedDir s.op = s.dir then goto (firstPhase s.op) s
      else if requestedDir s.op = .float then goto .taMi s else goto .taSet s) := by
  simp [phaseStep, turnaroundPhase, h]

theorem phaseStep_taMi (h : s.phase = .taMi) :
    phaseStep s = goto .taSet (pinMode .input s) := by
  simp [phaseStep, turnaroundPhase, h]

theorem phaseStep_taSet (h : s.phase = .taSet) :
    phaseStep s = goto (byWidth s .taSet2 .taWait) (pinWriteClk true s) := by
  simp [phaseStep, turnaroundPhase, h]

theorem phaseStep_taSet2 (h : s.phase = .taSet2) :
    phaseStep s = goto .taClr (pinWriteClk true s) := by
  simp [phaseStep, turnaroundPhase, h]

theorem phaseStep_taWait (h : s.phase = .taWait) :
    phaseStep s = goto .taClr (wait s.timing.turnaround s) := by
  simp [phaseStep, turnaroundPhase, h]

theorem phaseStep_taClr (h : s.phase = .taClr) :
    phaseStep s = (
      if requestedDir s.op = .drive then goto .taMo (pinWriteClk false s)
      else goto (firstPhase s.op) { pinWriteClk false s with dir := .float }) := by
  simp [phaseStep, turnaroundPhase, h]

theorem phaseStep_taMo (h : s.phase = .taMo) :
    phaseStep s = goto (firstPhase s.op) { pinMode .output s with dir := .drive } := by
  simp [phaseStep, turnaroundPhase, h]

theorem phaseStep_rdSmp (h : s.phase = .rdSmp) :
    phaseStep s = goto .rdSet (sampleToSmp s) := by
  simp [phaseStep, readPhase, h]

theorem phaseStep_rdSet (h : s.phase = .rdSet) :
    phaseStep s = goto (byWidth s .rdClr .rdWait) (accumulate (pinWriteClk true s)) := by
  simp [phaseStep, readPhase, h]

theorem phaseStep_rdWait (h : s.phase = .rdWait) :
    phaseStep s = goto .rdClr (wait s.timing.seqIn s) := by
  simp [phaseStep, readPhase, h]

theorem phaseStep_rdClr (h : s.phase = .rdClr) :
    phaseStep s = (
      let u := nextBit (pinWriteClk false s)
      if moreTicks u then goto .rdSmp u else complete { u with rdata := u.shift }) := by
  simp [phaseStep, readPhase, h]

theorem phaseStep_rpClr (h : s.phase = .rpClr) :
    phaseStep s = goto .rpSmp (pinWriteClk false s) := by
  simp [phaseStep, readParPhase, h]

theorem phaseStep_rpSmp (h : s.phase = .rpSmp) :
    phaseStep s = goto .rpSet (sampleToSmp s) := by
  simp [phaseStep, readParPhase, h]

theorem phaseStep_rpSet (h : s.phase = .rpSet) :
    phaseStep s = (
      let u := nextBit (accumulate (pinWriteClk true s))
      goto (byWidth u (afterReadParTick u) .rpWait) u) := by
  simp [phaseStep, readParPhase, h]

theorem phaseStep_rpWait (h : s.phase = .rpWait) :
    phaseStep s = goto (afterReadParTick s) (wait s.timing.seqInParLoop s) := by
  simp [phaseStep, readParPhase, h]

theorem phaseStep_rpPclr (h : s.phase = .rpPclr) :
    phaseStep s = goto .rpPsmp (pinWriteClk false s) := by
  simp [phaseStep, readParPhase, h]

theorem phaseStep_rpPsmp (h : s.phase = .rpPsmp) :
    phaseStep s = goto .rpPset (sampleToPar s) := by
  simp [phaseStep, readParPhase, h]

theorem phaseStep_rpPset (h : s.phase = .rpPset) :
    phaseStep s = goto (byWidth s .rpPend .rpPwait) (pinWriteClk true s) := by
  simp [phaseStep, readParPhase, h]

theorem phaseStep_rpPwait (h : s.phase = .rpPwait) :
    phaseStep s = goto .rpPend (wait s.timing.seqInParEnd s) := by
  simp [phaseStep, readParPhase, h]

theorem phaseStep_rpPend (h : s.phase = .rpPend) :
    phaseStep s = (
      let u := pinWriteClk false s
      complete { u with rdata := u.shift, perr := parityMismatch u.shift u.par }) := by
  simp [phaseStep, readParPhase, h]

theorem phaseStep_wrPre (h : s.phase = .wrPre) :
    phaseStep s = goto .wrClr (driveBit s) := by
  simp [phaseStep, writePhase, h]

theorem phaseStep_wrClr (h : s.phase = .wrClr) :
    phaseStep s = goto .wrDrv (pinWriteClk false s) := by
  simp [phaseStep, writePhase, h]

theorem phaseStep_wrDrv (h : s.phase = .wrDrv) :
    phaseStep s = goto .wrSet (nextBit (shiftOut (driveBit s))) := by
  simp [phaseStep, writePhase, h]

theorem phaseStep_wrSet (h : s.phase = .wrSet) :
    phaseStep s = goto (byWidth s (afterWriteTick s) .wrWait) (pinWriteClk true s) := by
  simp [phaseStep, writePhase, h]

theorem phaseStep_wrWait (h : s.phase = .wrWait) :
    phaseStep s = goto (afterWriteTick s) (wait s.timing.seqOut s) := by
  simp [phaseStep, writePhase, h]

theorem phaseStep_wrEnd (h : s.phase = .wrEnd) :
    phaseStep s = complete (pinWriteClk false s) := by
  simp [phaseStep, writePhase, h]

theorem phaseStep_wpPre (h : s.phase = .wpPre) :
    phaseStep s = goto .wpSet (driveBit s) := by
  simp [phaseStep, writeParPhase, h]

theorem phaseStep_wpSet (h : s.phase = .wpSet) :
    phaseStep s = goto .wpDrv (nextBit (shiftOut (pinWriteClk true s))) := by
  simp [phaseStep, writeParPhase, h]

theorem phaseStep_wpDrv (h : s.phase = .wpDrv) :
    phaseStep s = goto (byWidth s .wpClr .wpWait) (driveBit s) := by
  simp [phaseStep, writeParPhase, h]

theorem phaseStep_wpWait (h : s.phase = .wpWait) :
    phaseStep s = goto .wpClr (wait s.timing.seqOutParLoop s) := by
  simp [phaseStep, writeParPhase, h]

theorem phaseStep_wpClr (h : s.phase = .wpClr) :
    phaseStep s = goto (if moreTicks s then .wpSet else .wpPdrv) (pinWriteClk false s) := by
  simp [phaseStep, writeParPhase, h]

theorem phaseStep_wpPdrv (h : s.phase = .wpPdrv) :
    phaseStep s = goto .wpPclr (pinWriteDio s.par s) := by
  simp [phaseStep, writeParPhase, h]

theorem phaseStep_wpPclr (h : s.phase = .wpPclr) :
    phaseStep s = goto (byWidth s .wpPset .wpPwait1) (pinWriteClk false s) := by
  simp [phaseStep, writeParPhase, h]

theorem phaseStep_wpPwait1 (h : s.phase = .wpPwait1) :
    phaseStep s = goto .wpPset (wait s.timing.seqOutParLoop s) := by
  simp [phaseStep, writeParPhase, h]

theorem phaseStep_wpPset (h : s.phase = .wpPset) :
    phaseStep s = goto (byWidth s .wpPset2 .wpPwait2) (pinWriteClk true s) := by
  simp [phaseStep, writeParPhase, h]

theorem phaseStep_wpPset2 (h : s.phase = .wpPset2) :
    phaseStep s = goto .wpPend (pinWriteClk true s) := by
  simp [phaseStep, writeParPhase, h]

theorem phaseStep_wpPwait2 (h : s.phase = .wpPwait2) :
    phaseStep s = goto .wpPend (wait s.timing.seqOutParEnd s) := by
  simp [phaseStep, writeParPhase, h]

theorem phaseStep_wpPend (h : s.phase = .wpPend) :
    phaseStep s = complete (pinWriteClk false s) := by
  simp [phaseStep, writeParPhase, h]

/-- An idle state is already there. -/
theorem runToIdle_of_idle (n : Nat) (h : s.phase = .idle) : runToIdle n s = s := by
  cases n <;> simp [runToIdle, h]

/-- One phase step of a run. -/
theorem runToIdle_succ (n : Nat) (h : s.phase ≠ .idle) : runToIdle (n + 1) s = runToIdle n (phaseStep s) := by
  rw [runToIdle, if_neg h]

/-- A run in two parts. -/
theorem runToIdle_add (m n : Nat) : ∀ s : State, runToIdle (m + n) s = runToIdle n (runToIdle m s) := by
  induction m with
  | zero => intro s; simp [runToIdle]
  | succ m ih =>
    intro s
    by_cases h : s.phase = .idle
    · rw [runToIdle_of_idle _ h, runToIdle_of_idle _ h, runToIdle_of_idle _ h]
    · rw [Nat.succ_add, runToIdle_succ _ h, runToIdle_succ _ h, ih]

end Sys2Proof.Machine
end

