-- ==== Sys2Proof/Laws/Wire.lean ====
section
/-! SUPPORT. The observer's functions over appended events. -/

namespace Sys2Proof.Machine

/-- Latches after two lists of events. -/
theorem afterAll_append (p : Pins) (a b : List Event) : p.afterAll (a ++ b) = (p.afterAll a).afterAll b := by
  simp [Pins.afterAll]

/-- Latches after one more event. -/
theorem afterAll_cons (p : Pins) (e : Event) (es : List Event) : p.afterAll (e :: es) = (p.after e).afterAll es := rfl

/-- The rising-edge capture of two lists of events. -/
theorem risingCapture_append (a b : List Event) : ∀ p : Pins,
    risingCapture p (a ++ b) = risingCapture p a ++ risingCapture (p.afterAll a) b := by
  induction a with
  | nil => intro p; rfl
  | cons e es ih =>
    intro p
    rw [afterAll_cons, List.cons_append, risingCapture, risingCapture]
    split <;> simp [ih]

/-- Falling edges of two lists of events. -/
theorem fallingEdges_append (a b : List Event) : ∀ p : Pins,
    fallingEdges p (a ++ b) = fallingEdges p a + fallingEdges (p.afterAll a) b := by
  induction a with
  | nil => intro p; simp [fallingEdges, Pins.afterAll]
  | cons e es ih => intro p; simp [fallingEdges, afterAll_cons, ih, Nat.add_assoc]

/-- The level history of two lists of events. -/
theorem levelHistory_append (a b : List Event) : ∀ p : Pins,
    levelHistory p (a ++ b) = levelHistory p a ++ levelHistory (p.afterAll a) b := by
  induction a with
  | nil => intro p; rfl
  | cons e es ih => intro p; simp [levelHistory, afterAll_cons, ih]

/-- Samples of two lists of events. -/
theorem samplesWhileLow_append (a b : List Event) : ∀ p : Pins,
    samplesWhileLow p (a ++ b) = (samplesWhileLow p a && samplesWhileLow (p.afterAll a) b) := by
  induction a with
  | nil => intro p; simp [samplesWhileLow, Pins.afterAll]
  | cons e es ih => intro p; simp [samplesWhileLow, afterAll_cons, ih, Bool.and_assoc]

/-- Data changes of two lists of events. -/
theorem dataChangesWhileLow_append (a b : List Event) : ∀ p : Pins,
    dataChangesWhileLow p (a ++ b) = (dataChangesWhileLow p a && dataChangesWhileLow (p.afterAll a) b) := by
  induction a with
  | nil => intro p; simp [dataChangesWhileLow, Pins.afterAll]
  | cons e es ih => intro p; simp [dataChangesWhileLow, afterAll_cons, ih, Bool.and_assoc]

end Sys2Proof.Machine
end

