-- ==== Sys2Proof/Tests/Slice0.lean ====
section
/-! SUPPORT. Tests and witnesses. Every expected result is the spec's own: 95_test_vectors.md (V-*), 30_encoding.md
section 8 and the worked examples of the rules, named in each comment. The witnesses show, for each statement
with hypotheses, a state and operands that meet them. -/

namespace Sys2Proof.Tests

open Sys2Proof
open Sys2Proof.Machine
open Sys2Proof.Safety

/-! ## Helpers -/

/-- Profile `P` of 95_test_vectors.md, Part 2. -/
def profileP : Profile := ⟨5, 1, 2, 3, 4, 6, 7⟩

/-- A coherent idle-low initialised link: variant, recorded direction, answers of the target. -/
def linkAt (fixed : Bool) (d : Direction) (answers : List Level) : State :=
  { State.reset with
    link := ⟨fixed, 3⟩, timing := profileP, dispatch := DispatchTable.full, dir := d, dioOe := d.mode
    target := answers }

def C0 : Event := .clk false
def C1 : Event := .clk true
def D0 : Event := .dio false
def D1 : Event := .dio true
def S0 : Event := .sample false
def S1 : Event := .sample true
def MI : Event := .mode .input
def MO : Event := .mode .output
def W (n : DelayCount) : Event := .wait n

/-- A view of the next state of an outcome, if there is one. -/
def view {α : Type} (f : State → α) : Host.Outcome State Fault Refusal → Option α
  | .next s => some (f s)
  | .fault _ => none
  | .refused _ => none

/-- The refusal of an outcome, if there is one. -/
def refusal : Host.Outcome State Fault Refusal → Option Refusal
  | .next _ => none
  | .fault _ => none
  | .refused r => some r

/-! ## WellFormed: an ill-formed term for each check, refused (30_encoding.md R78), and its legal neighbours (V-X7) -/

theorem test_wf_read : (Instr.read 0).wellFormed = false ∧ (Instr.read 33).wellFormed = false ∧
    (Instr.read 1).wellFormed = true ∧ (Instr.read 32).wellFormed = true := by decide

theorem test_wf_readWithParity : (Instr.readWithParity 0).wellFormed = false ∧
    (Instr.readWithParity 33).wellFormed = false ∧ (Instr.readWithParity 32).wellFormed = true := by decide

theorem test_wf_write : (Instr.write 5 0).wellFormed = false ∧ (Instr.write 5 63).wellFormed = false ∧
    (Instr.write 5 1).wellFormed = true := by decide

theorem test_wf_writeWithParity : (Instr.writeWithParity 5 0).wellFormed = false ∧
    (Instr.writeWithParity 5 33).wellFormed = false ∧ (Instr.writeWithParity 5 32).wellFormed = true := by decide

/-! ## Decode: words written out from 30_encoding.md R71, R72 and its examples, one for each constructor -/

theorem test_decode_read : decode ⟨0b000000011#9, 0, 0⟩ = .ok (.read 3) := by decide
theorem test_decode_readWithParity : decode ⟨0b001000100#9, 0, 0⟩ = .ok (.readWithParity 4) := by decide
theorem test_decode_write : decode ⟨0b010001000#9, 0xA5, 0⟩ = .ok (.write 0xA5 8) := by decide
theorem test_decode_writeWithParity :
    decode ⟨0b011100000#9, 0x12345678, 0⟩ = .ok (.writeWithParity 0x12345678 32) := by decide
theorem test_decode_init : decode ⟨0b100000000#9, 7, 9⟩ = .ok .init := by decide

/-- Count 0 is the lowest (R75). -/
theorem test_decode_configureTiming :
    decode ⟨0b101000000#9, 0, 0x00000007000000060000000500000004000000030000000200000001⟩ =
      .ok (.configureTiming ⟨1, 2, 3, 4, 5, 6, 7⟩) := by decide

/-- V-X4, V-X5: reserved encodings. -/
theorem test_decode_reserved : decode ⟨0x180, 0, 0⟩ = .error .reservedOpcode ∧
    decode ⟨0x1C0, 0, 0⟩ = .error .reservedOpcode ∧ decode ⟨0x101, 0, 0⟩ = .error .reservedField ∧
    decode ⟨0x160, 0, 0⟩ = .error .reservedField := by decide

/-- No word selects two rows of the opcode table. -/
theorem test_rows_disjoint : opcodeTable.Pairwise fun a b => ∀ w : BitVec 9, ¬ (a.selects w ∧ b.selects w) := by
  decide +kernel

theorem test_tableWord : decodeTableWord 16 0x084 = some (.write 0 4) ∧ decodeTableWord 16 0x1FF = none := by decide

/-! ## Turnaround (V-T3, V-T7) -/

theorem test_turnaround_float : (turnaround .float (linkAt false .drive [])).trace = [MI, C1, W 5, C0] ∧
    (turnaround .float (linkAt false .drive [])).dioOe = .input := by decide

theorem test_turnaround_drive_fixed : (turnaround .drive (linkAt true .float [])).trace = [C1, C1, C0, MO] ∧
    (turnaround .drive (linkAt true .float [])).dir = .drive := by decide

/-! ## read (V-R5, V-R4) -/

theorem test_read_turns :
    view (fun s => (s.trace, s.rdata, s.dir)) (exec (.read 2) (linkAt false .drive [false, true])) =
      some ([MI, C1, W 5, C0, S0, C1, W 1, C0, S1, C1, W 1, C0], 2, .float) := by decide

theorem test_read_32 :
    view (fun s => (s.rdata, s.trace.length))
      (exec (.read 32) (linkAt true .float (true :: List.replicate 30 false ++ [true]))) =
      some (0x80000001, 96) := by decide +kernel

/-! ## readWithParity (V-RP2, V-RP8) -/

theorem test_readWithParity_mismatch :
    view (fun s => (s.trace, s.rdata, s.perr))
      (exec (.readWithParity 4) (linkAt true .float [true, true, false, true, false])) =
      some ([C0, S1, C1, C0, S1, C1, C0, S0, C1, C0, S1, C1, C0, S0, C1, C0], 0xB, true) := by decide

theorem test_readWithParity_turns :
    view (fun s => (s.trace, s.rdata, s.perr))
      (exec (.readWithParity 2) (linkAt false .drive [true, false, true])) =
      some ([MI, C1, W 5, C0, C0, S1, C1, W 2, C0, S0, C1, W 2, C0, S1, C1, W 3, C0], 1, false) := by decide

/-! ## write (V-W2, V-W6) -/

theorem test_write_waits :
    view (fun s => (s.trace, s.dioO)) (exec (.write 0b1011 4) (linkAt false .drive [])) =
      some ([D1, C0, D1, C1, W 4, C0, D1, C1, W 4, C0, D0, C1, W 4, C0, D1, C1, W 4, C0], true) := by decide

theorem test_write_turns_fixed :
    view (fun s => (s.trace, s.dir, risingCapture (linkAt true .float []).pins s.trace))
      (exec (.write 0b10 2) (linkAt true .float [])) =
      some ([C1, C1, C0, MO, D0, C0, D0, C1, C0, D1, C1, C0], .drive,
        [(.input, false), (.output, false), (.output, true)]) := by decide

/-! ## writeWithParity (V-WP2, V-WP6) -/

theorem test_writeWithParity_waits :
    view (fun s => s.trace) (exec (.writeWithParity 0b1011 4) (linkAt false .drive [])) =
      some [D1, C1, D1, W 6, C0, C1, D0, W 6, C0, C1, D1, W 6, C0, C1, D0, W 6, C0, D1, C0, W 6, C1, W 7, C0] := by
  decide

/-- The operand on which 90_conflicts.md C1 turns: parity over the four transmitted bits is 0. -/
theorem test_writeWithParity_masked :
    view (fun s => s.trace) (exec (.writeWithParity 0x1F 4) (linkAt true .drive [])) =
      some [D1, C1, D1, C0, C1, D1, C0, C1, D1, C0, C1, D1, C0, D0, C0, C1, C1, C0] := by decide

/-! ## init, configureTiming (V-I1, V-I2, V-C1, V-C2) -/

theorem test_init : view (fun s => (s.status, s.dir, s.dispatch, s.trace)) (exec .init State.reset) =
    some (0, .float, ⟨.populated, .populated, .populated, .populated⟩, []) := by decide

theorem test_init_incoherent :
    view (fun s => (s.dir, s.dioOe, coherent s)) (exec .init (linkAt true .drive [])) =
      some (.float, .output, false) := by decide

theorem test_configureTiming :
    view (fun s => (s.timing, s.trace)) (exec (.configureTiming ⟨1, 2, 3, 4, 5, 6, 7⟩) State.reset) =
      some (⟨1, 2, 3, 4, 5, 6, 7⟩, []) := by decide

/-- The worked example of 43_timing.md R154: the new counts hold from the next command. -/
theorem test_configureTiming_then_read :
    (view id (exec (.configureTiming ⟨1, 2, 3, 4, 5, 6, 7⟩) (linkAt false .float [true]))).bind
      (fun s => view (fun u => u.trace) (exec (.read 1) s)) = some [S1, C1, W 2, C0] := by decide

theorem test_configureTiming_fixed :
    refusal (exec (.configureTiming profileP) (linkAt true .float [])) = some .timingAbsent := by decide

/-! ## Refusals (V-X1, V-X3, V-X6) through a step -/

theorem test_refusals :
    refusal (step ((linkAt true .float []).withFetchWord 16 0x000)) = some .ticksOutOfRange ∧
    refusal (step ((linkAt true .float []).withFetchWord 16 0x0A1)) = some .ticksOutOfRange ∧
    refusal (step (State.reset.withFetchWord 16 0x001)) = some .notInitialised ∧
    refusal (step (State.reset.withFetchWord 16 0x000)) = some .notInitialised ∧
    refusal (step (State.reset.withFetchWord 16 0x180)) = some .reservedOpcode := by decide

theorem test_step_runs_init :
    view (fun s => (s.dispatch, s.host)) (step (State.reset.withFetchWord 16 0x100)) =
      some (DispatchTable.full, []) := by decide

/-! ## Sequencer, flags, records, text -/

/-- The sequencer's first steps for `read` (R183, R184): accept, check, sample. -/
theorem test_sequencer_read :
    view (fun s => (s.phase, (phaseStep s).phase, (phaseStep (phaseStep s)).trace))
      (acceptStep (.read 3) (linkAt true .float [true, false, true])) = some (.taCheck, .rdSmp, [S1]) := by decide

/-- 95_test_vectors.md V-WP5 (popcount 13) and 00_scope.md R9. -/
theorem test_popcount : popcount 0x12345678 = 13 ∧ mask 32 = 0xFFFFFFFF ∧ mask 1 = 1 := by decide +kernel

/-- The delay engine with count 2 and a unit of 3 cycles is done after 6 cycles and not after 5 (R151). -/
theorem test_delay : delayDone (delayTicks ⟨false, 3⟩ 5 (delayLoad 2)) = false ∧
    delayDone (delayTicks ⟨false, 3⟩ 6 (delayLoad 2)) = true := by decide

theorem test_record : recordOf (.wait 5) = ⟨0b1000, some 5⟩ ∧ recordOf S1 = ⟨0b0111, none⟩ ∧
    eventOf ⟨0b1001, none⟩ = none := by decide

/-- `seq_out 0b1011, 4 # x`: an alias, a binary number, a comment (R84). -/
theorem test_text_alias : parseLine ['s','e','q','_','o','u','t',' ','0','b','1','0','1','1',',',' ','4',' ','#',' ','x'] =
    some (.command (.write 0b1011 4)) := by decide

/-- `writeWithParity 0x1F, 32`, and a line with an operand missing (R84). -/
theorem test_text_hex : parseLine ['w','r','i','t','e','W','i','t','h','P','a','r','i','t','y',' ','0','x','1','F',',',' ','3','2'] =
    some (.command (.writeWithParity 0x1F 32)) ∧ parseLine ['r','e','a','d'] = none := by decide

/-- `turnaround Drive` calls the internal procedure (R85); `init` takes no operand. -/
theorem test_text_turnaround :
    parseLine ['t','u','r','n','a','r','o','u','n','d',' ','D','r','i','v','e'] = some (.turnaround .drive) ∧
    parseLine ['i','n','i','t'] = some (.command .init) ∧ parseLine ['i','n','i','t',' ','1'] = none := by decide

/-- `configureTiming 1,2,3,4,5,6,7` (V-C1). -/
theorem test_text_profile :
    parseLine (['c','o','n','f','i','g','u','r','e','T','i','m','i','n','g',' '] ++
      ['1',',','2',',','3',',','4',',','5',',','6',',','7']) =
      some (.command (.configureTiming ⟨1, 2, 3, 4, 5, 6, 7⟩)) := by decide

/-! ## Witnesses: for each statement with hypotheses, inputs that meet them, at the boundaries of their ranges -/

/-- The core the host reads is this machine. -/
theorem test_core : core.reset = State.reset := rfl

/-- StepRunsThePresentedCommand: both clauses. -/
theorem witness_StepRunsThePresentedCommand :
    (State.reset.phase = .idle ∧ State.reset.host = []) ∧
    ((present (encode .init) State.reset).phase = .idle ∧
      (present (encode .init) State.reset).host = encode .init :: [] ∧ decode (encode .init) = .ok .init) := by decide

/-- AcceptanceChecksInOrder: a word for each branch, at the ends of its range. -/
theorem witness_AcceptanceChecksInOrder :
    (∀ w ∈ [0x180#9, 0x1FF#9], refusal (step (present ⟨w, 0, 0⟩ State.reset)) = some .reservedOpcode) ∧
    (∀ w ∈ [0x101#9, 0x13F#9, 0x141#9, 0x17F#9],
      refusal (step (present ⟨w, 0, 0⟩ (linkAt true .float []))) = some .reservedField) ∧
    refusal (step (present ⟨0x140, 0, 0⟩ (linkAt true .float []))) = some .timingAbsent ∧
    (∀ w ∈ [0x000#9, 0x041#9, 0x0A0#9, 0x0FF#9],
      refusal (step (present ⟨w, 0, 0⟩ State.reset)) = some .notInitialised) ∧
    (∀ w ∈ [0x000#9, 0x021#9, 0x03F#9, 0x040#9, 0x061#9, 0x080#9, 0x0A1#9, 0x0C0#9, 0x0FF#9],
      refusal (step (present ⟨w, 0, 0⟩ (linkAt true .float []))) = some .ticksOutOfRange) ∧
    (∀ w ∈ [0x001#9, 0x041#9, 0x081#9, 0x0C1#9, 0x100#9, 0x140#9],
      view (fun s => (s.phase, s.host)) (step (present ⟨w, 0, 0⟩ (linkAt false .float [true, false]))) =
        some (.idle, [])) := by decide

/-- BusyBlockTakesNoCommand: a command in flight with another presented. -/
theorem witness_BusyBlockTakesNoCommand :
    ∃ s : State, s.phase ≠ .idle ∧ s.host ≠ [] ∧ view (fun u => u.host) (step s) = some s.host :=
  ⟨{ linkAt true .float [] with phase := .rdSet, host := [encode .init] }, by decide⟩

/-- EachCommandGivesOneResponse, CommandEventCounts, PrimitivesByCommand, WaitsByCommand, DirectionFollowsRequests: a
completed command of each kind, at one tick. -/
theorem witness_completed_commands :
    (∃ u, exec (.read 1) (linkAt false .drive [true]) = .next u) ∧
    (∃ u, exec (.readWithParity 1) (linkAt true .float [true, false]) = .next u) ∧
    (∃ u, exec (.write 1 1) (linkAt false .float []) = .next u) ∧
    (∃ u, exec (.writeWithParity 1 1) (linkAt true .drive []) = .next u) ∧
    (∃ u, exec .init (linkAt true .drive []) = .next u) ∧
    (∃ u, exec (.configureTiming profileP) (linkAt false .float []) = .next u) :=
  ⟨⟨_, rfl⟩, ⟨_, rfl⟩, ⟨_, rfl⟩, ⟨_, rfl⟩, ⟨_, rfl⟩, ⟨_, rfl⟩⟩

/-- RepeatedTurnaroundIsSilent and TurnaroundPulsesOncePerChange: the recorded direction asked again, and each
direction on each variant. -/
theorem witness_turnaround :
    (linkAt false .drive []).dir = .drive ∧ (linkAt false .drive []).link.fixedClkWidth = false ∧
    (linkAt true .drive []).dir = .drive ∧ (linkAt true .drive []).link.fixedClkWidth = true ∧
    (linkAt false .float []).dir = .float ∧ (linkAt false .float []).link.fixedClkWidth = false ∧
    (linkAt true .float []).dir = .float ∧ (linkAt true .float []).link.fixedClkWidth = true := by decide

/-- TurnaroundEdgeIsUndriven: both directions of change. -/
theorem witness_TurnaroundEdgeIsUndriven :
    (coherent (linkAt true .drive []) = true ∧ idleLow (linkAt true .drive []) = true ∧
      Direction.float ≠ (linkAt true .drive []).dir) ∧
    (coherent (linkAt true .float []) = true ∧ idleLow (linkAt true .float []) = true ∧
      Direction.drive ≠ (linkAt true .float []).dir) := by decide

/-- ReadClocksInAWord, ReadWithParityClocksInAWord, WriteClocksOutAWord, WriteWithParityClocksOutAWord and the result
laws: an empty slot, the counts just outside the range, and its two ends. -/
theorem witness_transport_clauses :
    (State.reset.dispatch.slot0 = .empty ∧ State.reset.dispatch.slot1 = .empty ∧
      State.reset.dispatch.slot2 = .empty ∧ State.reset.dispatch.slot3 = .empty) ∧
    ((linkAt true .float []).dispatch.slot0 = .populated ∧ (linkAt true .float []).dispatch.slot1 = .populated ∧
      (linkAt true .float []).dispatch.slot2 = .populated ∧ (linkAt true .float []).dispatch.slot3 = .populated) ∧
    ((0#6).toNat = 0 ∧ 32 < (33#6).toNat ∧ 1 ≤ (1#6).toNat ∧ (1#6).toNat ≤ 32 ∧ 1 ≤ (32#6).toNat ∧
      (32#6).toNat ≤ 32) := by decide

/-- MismatchLeavesTheDataAlone: one data bit, its parity bit, one answer more. -/
theorem witness_MismatchLeavesTheDataAlone :
    (linkAt true .float []).dispatch.slot1 = .populated ∧ 1 ≤ (1#6).toNat ∧ (1#6).toNat ≤ 32 ∧
    [true].length = (1#6).toNat := by decide

/-- ReadersSampleWithTheClockLow, CommandRisingEdges: an idle-low start and a completed reader of each kind. -/
theorem witness_idle_low_readers :
    idleLow (linkAt false .drive [true, false]) = true ∧
    (∃ u, exec (.read 2) (linkAt false .drive [true, false]) = .next u) ∧
    (∃ u, exec (.readWithParity 1) (linkAt false .drive [true, false]) = .next u) :=
  ⟨by decide, ⟨_, rfl⟩, ⟨_, rfl⟩⟩

/-- ReadersFrame and WritersFrame: each alternative of the hypothesis. -/
theorem witness_frames :
    (∃ u, exec (.read 1) (linkAt true .float [true]) = .next u) ∧
    (∃ u, exec (.readWithParity 1) (linkAt true .float [true, true]) = .next u) ∧
    (∃ u, exec (.write 3 1) (linkAt true .float []) = .next u) ∧
    (∃ u, exec (.writeWithParity 3 1) (linkAt true .float []) = .next u) :=
  ⟨⟨_, rfl⟩, ⟨_, rfl⟩, ⟨_, rfl⟩, ⟨_, rfl⟩⟩

/-- WritePresentsBitsOnRisingEdges, WriteWithParityPresentsBitsAndParity, WriteThenReadRoundTrip,
ParityRoundTripDetectsOneError: a coherent idle-low initialised link in either direction. -/
theorem witness_ready_links :
    (initialised (linkAt true .float []) = true ∧ coherent (linkAt true .float []) = true ∧
      idleLow (linkAt true .float []) = true ∧ (linkAt true .float []).dispatch.slot2 = .populated ∧
      (linkAt true .float []).dispatch.slot3 = .populated ∧ 1 ≤ (1#6).toNat ∧ (1#6).toNat ≤ 32) ∧
    (initialised (linkAt false .drive []) = true ∧ coherent (linkAt false .drive []) = true ∧
      idleLow (linkAt false .drive []) = true ∧ (linkAt false .drive []).dispatch.slot2 = .populated ∧
      (linkAt false .drive []).dispatch.slot3 = .populated ∧ 1 ≤ (32#6).toNat ∧ (32#6).toNat ≤ 32) := by decide

/-- TransmittedParityIsMaskedPopcount: a word with no 1 at or above bit 4, and the whole width. -/
theorem witness_TransmittedParityIsMaskedPopcount :
    (linkAt true .float []).dispatch.slot3 = .populated ∧
    (1 ≤ (4#6).toNat ∧ (4#6).toNat ≤ 32 ∧ 1 ≤ (32#6).toNat ∧ (32#6).toNat ≤ 32) ∧
    (∀ i, 4 ≤ i → (0xB#32).getLsbD i = false) ∧
    (∀ i, 32 ≤ i → (0xFFFFFFFF#32).getLsbD i = false) := by
  refine ⟨by decide, by decide, fun i h => ?_, fun i h => by simp [h]⟩
  have hs : ∀ j : Fin 32, 4 ≤ j.val → (0xB#32).getLsbD j.val = false := by decide
  by_cases h2 : i < 32
  · exact hs ⟨i, h2⟩ h
  · exact BitVec.getLsbD_of_ge _ _ (by omega)

/-- HighOperandBitsAreNotSent: operands that agree below bit 4 and differ there, and below bit 5. -/
theorem witness_HighOperandBitsAreNotSent :
    ((linkAt true .float []).dispatch.slot2 = .populated ∧ (linkAt true .float []).dispatch.slot3 = .populated ∧
      1 ≤ (4#6).toNat ∧ (4#6).toNat ≤ 32) ∧
    (∀ i, i < (4#6).toNat → (0x0F#32).getLsbD i = (0x1F#32).getLsbD i) ∧
    (∀ i, i < (4#6).toNat + 1 → (0x1F#32).getLsbD i = (0x3F#32).getLsbD i) ∧
    (0x0F#32 ≠ 0x1F#32) ∧ (0x1F#32 ≠ 0x3F#32) := by decide

/-- SplitWriteSendsTheSameBits: 8 and 24 ticks make 32, and 1 and 1 make 2. -/
theorem witness_SplitWriteSendsTheSameBits :
    ((linkAt false .float []).dispatch.slot2 = .populated ∧ coherent (linkAt false .float []) = true ∧
      idleLow (linkAt false .float []) = true) ∧
    (1 ≤ (8#6).toNat ∧ 1 ≤ (24#6).toNat ∧ (32#6).toNat = (8#6).toNat + (24#6).toNat ∧ (32#6).toNat ≤ 32) ∧
    (1 ≤ (1#6).toNat ∧ (2#6).toNat = (1#6).toNat + (1#6).toNat ∧ (2#6).toNat ≤ 32) := by decide

/-- RepeatedInitLosesCoherence. -/
theorem witness_RepeatedInitLosesCoherence :
    (linkAt true .drive []).dir = .drive ∧ (linkAt true .drive []).dioOe = .output := by decide

/-- InitPopulatesAndRecordsFloat, ConfigureTimingReplacesTheProfile: the ends of the nonzero `TICKS` values, and each
variant. -/
theorem witness_ConfigureTimingReplacesTheProfile :
    (1#6 ≠ 0#6 ∧ 63#6 ≠ 0#6) ∧
    (linkAt false .float []).link.fixedClkWidth = false ∧ (linkAt true .float []).link.fixedClkWidth = true := by decide

/-- LatchesFollowTheTrace, OnlyInitWritesTheTable: a step between commands and one inside a command. -/
theorem witness_steps :
    (∃ u, step (present (encode (.write 1 1)) (linkAt true .float [])) = .next u) ∧
    (∃ u, step { linkAt true .float [] with phase := .wpClr } = .next u) ∧
    initialised (linkAt true .float []) = true ∧ (Instr.write 1 1 ≠ .init) :=
  ⟨⟨_, rfl⟩, ⟨_, rfl⟩, by decide, by decide⟩

/-- DelayEngineCountsUnits: the shortest unit, with the count at and just below the end. -/
theorem witness_DelayEngineCountsUnits : 0 < (Config.Link.mk false 1).delayUnitCycles ∧
    (3#32).toNat * (Config.Link.mk false 1).delayUnitCycles ≤ 3 ∧
    ¬ (3#32).toNat * (Config.Link.mk false 1).delayUnitCycles ≤ 2 := by decide

/-- DelayUnitChangesNothing: a step that completes and one that is refused, and another unit. -/
theorem witness_DelayUnitChangesNothing :
    (∃ u, step (present (encode (.read 1)) (linkAt false .drive [true])) = .next u) ∧
    step (present (encode (.read 0)) (linkAt false .drive [])) = .refused .ticksOutOfRange ∧
    withDelayUnit 7 (linkAt false .drive []) ≠ linkAt false .drive [] :=
  ⟨⟨_, rfl⟩, rfl, by decide⟩

/-- DelayCountsChangeOnlyWaits: two links with different profiles and different waits behind them. -/
theorem witness_DelayCountsChangeOnlyWaits :
    sameButTiming { linkAt false .float [] with trace := [C1, W 5, C0] }
      { linkAt false .float [] with timing := ⟨1, 2, 3, 4, 5, 6, 7⟩, trace := [C1, W 1, C0] } := by
  unfold sameButTiming; decide

/-- VariantChangesNoResult. -/
theorem witness_VariantChangesNoResult :
    isTransport (.write 1 1) = true ∧
    (∃ u, exec (.write 1 1) { linkAt true .float [] with link := { (linkAt true .float []).link with fixedClkWidth := true } } = .next u) ∧
    (∃ v, exec (.write 1 1) { linkAt true .float [] with link := { (linkAt true .float []).link with fixedClkWidth := false } } = .next v) :=
  ⟨by decide, ⟨_, rfl⟩, ⟨_, rfl⟩⟩

/-- SequencerRunsTheOperationRules: a command that completes and one that is refused. -/
theorem witness_SequencerRunsTheOperationRules :
    (linkAt false .drive [true]).phase = .idle ∧
    (∃ u, exec (.read 1) (linkAt false .drive [true]) = .next u) ∧
    exec (.read 33) (linkAt false .drive []) = .refused .ticksOutOfRange :=
  ⟨by decide, ⟨_, rfl⟩, rfl⟩

/-- EventStepKeepsFlightInvariant, StepKeepsFlightInvariant: between commands with `init` presented, inside a command,
and inside the turnaround of a `read` with `init` waiting while the pad still drives (R76, R232). -/
theorem witness_flight_invariant :
    (flightInv (present (encode .init) State.reset) = true ∧
      initOnlyReleased (present (encode .init) State.reset) = true ∧
      (∃ u, eventStep (present (encode .init) State.reset) = .next u)) ∧
    (flightInv { linkAt false .drive [] with phase := .wpClr, op := 3, ticks := 2, bitidx := 1, clkO := true } = true ∧
      (∃ u, step { linkAt false .drive [] with phase := .wpClr, op := 3, ticks := 2, bitidx := 1, clkO := true } =
        .next u)) ∧
    (flightInv { linkAt true .drive [] with phase := .taMi, op := 0, ticks := 1, host := [encode .init] } = true ∧
      initOnlyReleased { linkAt true .drive [] with phase := .taMi, op := 0, ticks := 1, host := [encode .init] } =
        true ∧
      (∃ u, eventStep { linkAt true .drive [] with phase := .taMi, op := 0, ticks := 1, host := [encode .init] } =
        .next u)) :=
  ⟨⟨by decide, by decide, ⟨_, rfl⟩⟩, ⟨by decide, ⟨_, rfl⟩⟩, ⟨by decide, by decide, ⟨_, rfl⟩⟩⟩

/-- StepKeepsTableWhole: the table empty, and full. -/
theorem witness_StepKeepsTableWhole :
    tableInv State.reset = true ∧ tableInv (linkAt true .drive []) = true ∧
    (∃ u, step (present (encode .init) State.reset) = .next u) :=
  ⟨by decide, by decide, ⟨_, rfl⟩⟩

/-- A reset of a running fixed clock width link: idle and `Float` again, the configuration kept (R24, R220, R221). -/
theorem test_hardReset :
    (hardReset ResetValues.named { linkAt true .drive [] with phase := .wpClr }).link = ⟨true, 3⟩ ∧
    (hardReset ResetValues.named { linkAt true .drive [] with phase := .wpClr }).phase = .idle ∧
    (hardReset ResetValues.named { linkAt true .drive [] with phase := .wpClr }).dir = .float := by decide

/-- ResetMeetsTheInvariants: open values that meet the launch premise. -/
theorem witness_ResetMeetsTheInvariants :
    ResetValues.named.clkO = false ∧ ResetValues.named.dioOe = .input ∧ ResetValues.named.status = 0#1 := by decide

/-- ContractCommandsCompleteReady: a transport command, `init`, and `configureTiming`, each within the contract. -/
theorem witness_ContractCommandsCompleteReady :
    (ready (linkAt false .float []) = true ∧ withinContract (linkAt false .float []) (.read 32) = true ∧
      withinContract (linkAt false .float []) .init = true ∧
      withinContract (linkAt false .float []) (.configureTiming profileP) = true) ∧
    decode (encode (.read 32)) = .ok (.read 32) ∧
    (present (encode (.read 32)) (linkAt false .float [])).host = encode (.read 32) :: [] := by decide

/-- LinksShareNothing: the second of two links steps. -/
theorem witness_LinksShareNothing :
    ∃ ms, stepLink 1 [State.reset, present (encode .init) State.reset] = some (.next ms) := ⟨_, rfl⟩

end Sys2Proof.Tests
end

section
/-! The turnaround on the direction already recorded (spec/40_turnaround.md R93). -/

namespace Sys2Proof.Machine

/-- A request for the recorded direction is the identity on the whole state. -/
theorem turnaround_of_recorded {d : Direction} {s : State} (h : d = s.dir) : turnaround d s = s := by
  rw [turnaround_eq, if_pos h]

/-- Whether or not it changes the direction, a turnaround records the one it was asked for. -/
@[simp] theorem turnaround_dir (d : Direction) (s : State) : (turnaround d s).dir = d := by
  rw [turnaround_fields]

/-- Settles O9: a turnaround leaves its own direction recorded, so a second call is a request for the recorded
direction. -/
theorem repeatedTurnaroundIsSilent : Obligations.RepeatedTurnaroundIsSilent :=
  fun d s => ⟨turnaround_of_recorded, turnaround_of_recorded (turnaround_dir d s).symm⟩

end Sys2Proof.Machine
end

section
/-! The two readers run on symbols, from acceptance to the response (spec/41_seq_in.md R110, R114). -/

namespace Sys2Proof.Machine

section Acceptance

variable {k : BitVec 2} {t : BitVec 6} {run : State → State} {s : State}

/-- Check (4) of R204: an empty slot comes first. -/
theorem admitTransport_of_empty (h : s.dispatch.slot k = .empty) :
    admitTransport k t run s = .refused .notInitialised :=
  admitTransport_eq_refused.2 (.inl ⟨h, rfl⟩)

/-- Check (5) of R204: behind a populated slot the count must be in range. -/
theorem admitTransport_of_outOfRange (h : s.dispatch.slot k = .populated) (ht : t.toNat = 0 ∨ 32 < t.toNat) :
    admitTransport k t run s = .refused .ticksOutOfRange :=
  have hr : ticksInRange t = false := by
    rw [← Bool.not_eq_true, ticksInRange_iff]
    omega
  admitTransport_eq_refused.2 (.inr ⟨h, hr, rfl⟩)

/-- A command that passes the checks is carried out. -/
theorem admitTransport_of_legal (h : s.dispatch.slot k = .populated) (h1 : 1 ≤ t.toNat) (h32 : t.toNat ≤ 32) :
    admitTransport k t run s = .next (run s) :=
  admitTransport_eq_next.2 ⟨h, (ticksInRange_iff t).2 ⟨h1, h32⟩, rfl⟩

end Acceptance

/-- `read t` from start to response, for a legal count. -/
theorem runRead_eq (t : BitVec 6) (s : State) (h1 : 1 ≤ t.toNat) (h32 : t.toNat ≤ 32) :
    runRead t s = { s with
      op := 0b000#3
      ticks := t
      dir := .float
      dioOe := if s.dir = .float then s.dioOe else .input
      clkO := false
      shift := wordOfSamples (samples s t.toNat)
      bitidx := t
      smp := sampleAt s (t.toNat - 1)
      phase := .idle
      rdata := wordOfSamples (samples s t.toNat)
      target := s.target.drop t.toNat
      draws := s.draws + (t.toNat - s.target.length)
      trace := s.trace ++ turnaroundShape .float s ++ readShape s (samples s t.toNat)
      responses := s.responses ++ [⟨wordOfSamples (samples s t.toNat), s.perr, s.status⟩] } := by
  have h0 : t.toNat ≠ 0 := by omega
  unfold runRead
  simp only [turnaround_fields]
  rw [times_readTick_eq _ rfl rfl t.toNat h32]
  simp only [complete, response, startLoop, loadOperands, if_neg h0, BitVec.ofNat_toNat, BitVec.setWidth_eq,
    eq_comm (a := Direction.float), Direction.mode]
  rfl

/-- Taking answer `n` after `n` answers: the count of free draws. -/
theorem draws_after_answer (d n : Nat) (l : List Level) :
    d + (n - l.length) + (if l.drop n = [] then 1 else 0) = d + (n + 1 - l.length) := by
  simp only [List.drop_eq_nil_iff]
  split <;> omega

/-- What `readWithParity t` leaves for a legal count: the loop's word and samples, and the parity cycle's flag. -/
def afterReadWithParity (t : BitVec 6) (s : State) : State :=
  let word := wordOfSamples (samples s t.toNat)
  let p := sampleAt s t.toNat
  let flag := parityMismatch word p
  { s with
    op := 0b001#3
    ticks := t
    dir := .float
    dioOe := if s.dir = .float then s.dioOe else .input
    clkO := false
    shift := word
    bitidx := t
    smp := sampleAt s (t.toNat - 1)
    par := p
    phase := .idle
    rdata := word
    perr := flag
    target := s.target.drop (t.toNat + 1)
    draws := s.draws + (t.toNat + 1 - s.target.length)
    trace := s.trace ++ turnaroundShape .float s ++ readParShape s (samples s t.toNat) p
    responses := s.responses ++ [⟨word, flag, s.status⟩] }

/-- `readWithParity t` from start to response, for a legal count. -/
theorem runReadWithParity_eq (t : BitVec 6) (s : State) (h1 : 1 ≤ t.toNat) (h32 : t.toNat ≤ 32) :
    runReadWithParity t s = afterReadWithParity t s := by
  have h0 : t.toNat ≠ 0 := by omega
  unfold runReadWithParity
  simp only [turnaround_fields]
  rw [times_readParTick_eq _ rfl rfl t.toNat h32, readParEnd_eq, answer_after s _ t.toNat rfl rfl]
  simp only [complete, response, startLoop, loadOperands, if_neg h0, BitVec.ofNat_toNat, BitVec.setWidth_eq,
    eq_comm (a := Direction.float), Direction.mode, List.tail_drop, draws_after_answer]
  simp only [afterReadWithParity, readParShape, ← List.append_assoc]
  rfl

/-- An accepted `read` answers what its run leaves. -/
theorem exec_read_of_legal {t : BitVec 6} {s : State} (hs : s.dispatch.slot0 = .populated)
    (h1 : 1 ≤ t.toNat) (h32 : t.toNat ≤ 32) : exec (.read t) s = .next (runRead t s) :=
  admitTransport_of_legal (k := 0#2) hs h1 h32

/-- Settles O12: the acceptance checks of slot 0, and the run from start to response. -/
theorem readClocksInAWord : Obligations.ReadClocksInAWord := by
  intro t s
  refine ⟨rfl, admitTransport_of_empty (k := 0#2), admitTransport_of_outOfRange (k := 0#2), fun hs h1 h32 => ?_⟩
  rw [exec_read_of_legal hs h1 h32, runRead_eq t s h1 h32]

/-- An accepted `readWithParity` answers `afterReadWithParity`. -/
theorem exec_readWithParity_of_legal {t : BitVec 6} {s : State} (hs : s.dispatch.slot1 = .populated)
    (h1 : 1 ≤ t.toNat) (h32 : t.toNat ≤ 32) : exec (.readWithParity t) s = .next (afterReadWithParity t s) := by
  rw [← runReadWithParity_eq t s h1 h32]
  exact admitTransport_of_legal (k := 1#2) hs h1 h32

/-- Settles O14: the acceptance checks of slot 1, and the run from start to response. -/
theorem readWithParityClocksInAWord : Obligations.ReadWithParityClocksInAWord := fun _ _ =>
  ⟨rfl, admitTransport_of_empty (k := 1#2), admitTransport_of_outOfRange (k := 1#2),
    exec_readWithParity_of_legal⟩

/-- The first samples are the answers the target lists first. -/
theorem samples_of_answers (s : State) (bits rest : List Level) :
    samples { s with target := bits ++ rest } bits.length = bits := by
  apply List.ext_getElem?
  intro k
  rw [samples_getElem?]
  split
  · next h => simp [sampleAt, h, Nat.lt_add_right]
  · next h => rw [List.getElem?_eq_none (by omega)]

/-- The sample after the listed answers is the next listed one. -/
theorem sampleAt_length_of_answers (s : State) (bits rest : List Level) (p : Level) :
    sampleAt { s with target := bits ++ p :: rest } bits.length = p := by
  simp [sampleAt]

/-- A sample before the listed answers end is one of them. -/
theorem sampleAt_of_lt_answers (s : State) (bits rest : List Level) {k : Nat} (hk : k < bits.length) :
    sampleAt { s with target := bits ++ rest } k = bits.getD k false := by
  simp [sampleAt, hk, Nat.lt_add_right]

/-- The turnaround's events do not depend on the answers. -/
@[simp] theorem turnaroundShape_of_target (d : Direction) (s : State) (answers : List Level) :
    turnaroundShape d { s with target := answers } = turnaroundShape d s := rfl

/-- For given samples the reader's events do not depend on the answers still to come. -/
@[simp] theorem readParShape_of_target (s : State) (answers bs : List Level) (p : Level) :
    readParShape { s with target := answers } bs p = readParShape s bs p := rfl

/-- The parity sample is recorded by one event; those around it do not depend on it. -/
theorem readParShape_split (s : State) (bs : List Level) :
    ∃ es fs, ∀ p, readParShape s bs p = es ++ Event.sample p :: fs :=
  ⟨bs.flatMap (readParTickShape s) ++ [.clk false],
    .clk true :: (waitShape s.link s.timing.seqInParEnd ++ [.clk false]),
    fun p => by simp [readParShape, readParEndShape]⟩

/-- Where two lists that differ in one element disagree, they hold those two elements. -/
theorem getElem?_of_ne_at_middle {α : Type} {xs ys : List α} {a b : α} {k : Nat}
    (h : (xs ++ b :: ys)[k]? ≠ (xs ++ a :: ys)[k]?) :
    (xs ++ a :: ys)[k]? = some a ∧ (xs ++ b :: ys)[k]? = some b := by
  rcases Nat.lt_trichotomy k xs.length with hk | rfl | hk
  · simp [List.getElem?_append_left hk] at h
  · simp
  · simp [List.getElem?_append_right hk.le, List.getElem?_cons, Nat.sub_ne_zero_of_lt hk] at h

/-- Inverting the parity sample inverts the flag. -/
theorem parityMismatch_not (w : Word) (p : Bool) : parityMismatch w (!p) = !parityMismatch w p :=
  Bool.xor_not ..

/-- Settles O16: with the answers listed, the parity answer reaches only `PAR`, the flag and its own event. -/
theorem mismatchLeavesTheDataAlone : Obligations.MismatchLeavesTheDataAlone := by
  intro t s bits rest p hs h1 h32 hl
  refine ⟨_, _, exec_readWithParity_of_legal hs h1 h32, exec_readWithParity_of_legal hs h1 h32, ?_⟩
  have hlast : bits.length - 1 < bits.length := by omega
  have hrest (q : Level) : (bits ++ q :: rest).drop (bits.length + 1) = rest := by simp
  obtain ⟨es, fs, hshape⟩ := readParShape_split s bits
  simp only [afterReadWithParity, ← hl, samples_of_answers, sampleAt_length_of_answers,
    sampleAt_of_lt_answers s bits _ hlast, hrest, parityMismatch_not, turnaroundShape_of_target,
    readParShape_of_target, hshape, List.length_append, List.length_cons, ← List.append_assoc, true_and]
  exact fun k => getElem?_of_ne_at_middle

end Sys2Proof.Machine
end

section
/-! The two writers run on symbols, from acceptance to the response, and the parity bit they transmit
(spec/42_seq_out.md R130, R132, R134). -/

namespace Sys2Proof.Machine

/-- `write w, t` from start to response, for a legal count. -/
theorem runWrite_eq (w : Word) (t : BitVec 6) (s : State) (h1 : 1 ≤ t.toNat) :
    runWrite w t s = { s with
      op := 0b010#3
      ticks := t
      wdata := w
      dir := .drive
      dioOe := if s.dir = .drive then s.dioOe else .output
      clkO := false
      dioO := w.getLsbD (t.toNat - 1)
      shift := w >>> t.toNat
      bitidx := t
      phase := .idle
      trace := s.trace ++ turnaroundShape .drive s ++ writeShape s w t.toNat
      responses := s.responses ++ [⟨s.rdata, s.perr, s.status⟩] } := by
  have h0 : t.toNat ≠ 0 := by omega
  unfold runWrite
  simp only [turnaround_fields, driveBit]
  rw [times_writeTick_eq _ w rfl rfl]
  simp only [complete, response, startLoop, loadWord, loadOperands, pinWriteClk, pinWriteDio, emit, if_neg h0,
    BitVec.ofNat_toNat, BitVec.setWidth_eq, eq_comm (a := Direction.drive), Direction.mode, writeShape,
    List.append_assoc, List.cons_append, List.nil_append]
  rfl

/-- An accepted `write` answers what its run leaves. -/
theorem exec_write_of_legal {w : Word} {t : BitVec 6} {s : State} (hs : s.dispatch.slot2 = .populated)
    (h1 : 1 ≤ t.toNat) (h32 : t.toNat ≤ 32) : exec (.write w t) s = .next (runWrite w t s) :=
  admitTransport_of_legal (k := 2#2) hs h1 h32

/-- Settles O19: the acceptance checks of slot 2, and the run from start to response. -/
theorem writeClocksOutAWord : Obligations.WriteClocksOutAWord := by
  intro w t s
  refine ⟨rfl, admitTransport_of_empty (k := 2#2), admitTransport_of_outOfRange (k := 2#2), fun hs h1 h32 => ?_⟩
  rw [exec_write_of_legal hs h1 h32, runWrite_eq w t s h1]

/-- What `writeWithParity w, t` leaves for a legal count: the loop's shifted word, and the parity bit on the line. -/
def afterWriteWithParity (w : Word) (t : BitVec 6) (s : State) : State :=
  { s with
    op := 0b011#3
    ticks := t
    wdata := w
    dir := .drive
    dioOe := if s.dir = .drive then s.dioOe else .output
    clkO := false
    dioO := writeParity w t.toNat
    shift := w >>> t.toNat
    bitidx := t
    par := writeParity w t.toNat
    phase := .idle
    trace := s.trace ++ turnaroundShape .drive s ++ writeParShape s w t.toNat
    responses := s.responses ++ [⟨s.rdata, s.perr, s.status⟩] }

/-- `writeWithParity w, t` from start to response, for any count. -/
theorem runWriteWithParity_eq (w : Word) (t : BitVec 6) (s : State) :
    runWriteWithParity w t s = afterWriteWithParity w t s := by
  unfold runWriteWithParity
  simp only [turnaround_fields, driveBit]
  rw [times_writeParTick_eq _ w rfl rfl, writeParEnd_eq]
  simp only [complete, response, startLoop, loadWord, loadOperands, pinWriteDio, emit, afterWriteWithParity,
    BitVec.ofNat_toNat, BitVec.setWidth_eq, eq_comm (a := Direction.drive), Direction.mode, writeParShape,
    List.append_assoc, List.cons_append, List.nil_append]
  rfl

/-- An accepted `writeWithParity` answers `afterWriteWithParity`. -/
theorem exec_writeWithParity_of_legal {w : Word} {t : BitVec 6} {s : State} (hs : s.dispatch.slot3 = .populated)
    (h1 : 1 ≤ t.toNat) (h32 : t.toNat ≤ 32) :
    exec (.writeWithParity w t) s = .next (afterWriteWithParity w t s) := by
  rw [← runWriteWithParity_eq w t s]
  exact admitTransport_of_legal (k := 3#2) hs h1 h32

/-- Settles O21: the acceptance checks of slot 3, and the run from start to response. -/
theorem writeWithParityClocksOutAWord : Obligations.WriteWithParityClocksOutAWord := fun _ _ _ =>
  ⟨rfl, admitTransport_of_empty (k := 3#2), admitTransport_of_outOfRange (k := 3#2),
    exec_writeWithParity_of_legal⟩

/-- A count below `n` of what stands below `t` is the count below `t`. -/
theorem countP_range_below (f : Nat → Bool) {t n : Nat} (h : t ≤ n) :
    (List.range n).countP (fun i => f i && decide (i < t)) = (List.range t).countP f := by
  obtain ⟨d, rfl⟩ := Nat.exists_eq_add_of_le h
  have hlow : (List.range t).countP (fun i => f i && decide (i < t)) = (List.range t).countP f :=
    List.countP_congr fun i hi => by simp [List.mem_range.1 hi]
  rw [List.range_add, List.countP_append, List.countP_map, hlow]
  simp [Function.comp_def]

/-- The masked popcount counts the ones among the low `t` bits. -/
theorem popcount_and_mask (w : Word) {t : Nat} (h : t ≤ 32) :
    popcount (w &&& mask t) = (List.range t).countP fun i => w.getLsbD i := by
  rw [← countP_range_below _ h, popcount]
  refine List.countP_congr fun i hi => ?_
  rw [BitVec.getLsbD_and, mask_getLsbD, decide_eq_true (List.mem_range.1 hi), Bool.true_and]

/-- The ones among the low `t` bits and the parity bit are even in number. -/
theorem count_add_writeParity_even (w : Word) {t : Nat} (h : t ≤ 32) :
    ((List.range t).countP (fun i => w.getLsbD i) + (writeParity w t).toNat) % 2 = 0 := by
  rw [writeParity, oddOnes, popcount_and_mask w h]
  rcases Nat.mod_two_eq_zero_or_one ((List.range t).countP fun i => w.getLsbD i) with hc | hc <;>
    simp [Nat.add_mod, hc]

/-- A mask keeps a word that has no 1 outside it. -/
theorem and_mask_of_high_zero {w : Word} {t : Nat} (h : ∀ i, t ≤ i → w.getLsbD i = false) : w &&& mask t = w := by
  refine BitVec.eq_of_getLsbD_eq fun i hi => ?_
  by_cases ht : i < t
  · simp [mask_getLsbD, hi, ht]
  · simp [h i (by omega)]

/-- An event of the data line. -/
def isDio (e : Event) : Bool := e == .dio true || e == .dio false

@[simp] theorem isDio_dio (v : Level) : isDio (.dio v) = true := by cases v <;> rfl
@[simp] theorem isDio_clk (l : Level) : isDio (.clk l) = false := rfl
@[simp] theorem isDio_wait (n : DelayCount) : isDio (.wait n) = false := rfl

/-- A wait drives no line. -/
@[simp] theorem filter_isDio_waitShape (l : Config.Link) (n : DelayCount) : (waitShape l n).filter isDio = [] := by
  unfold waitShape
  split <;> rfl

/-- A set phase does not drive the data line. -/
@[simp] theorem filter_isDio_setShape (l : Config.Link) : (setShape l).filter isDio = [] := by
  unfold setShape
  split <;> rfl

/-- The parity cycle drives the data line once, with the parity bit. -/
theorem filter_isDio_writeParEndShape (s : State) (p : Level) :
    (writeParEndShape s p).filter isDio = [.dio p] := by
  simp [writeParEndShape]

/-- The last level `writeWithParity` drives is the parity bit. -/
theorem getLast?_filter_isDio_writeParShape (s : State) (w : Word) (t : Nat) (es : List Event) :
    ((es ++ writeParShape s w t).filter isDio).getLast? = some (.dio (writeParity w t)) := by
  have hend : ∃ fs, es ++ writeParShape s w t = fs ++ writeParEndShape s (writeParity w t) :=
    ⟨es ++ .dio (w.getLsbD 0) :: (List.range t).flatMap (writeParTickShape s w), by simp [writeParShape]⟩
  obtain ⟨fs, hfs⟩ := hend
  rw [hfs, List.filter_append, filter_isDio_writeParEndShape, List.getLast?_concat]

/-- The accept step of `writeWithParity` has computed the parity bit, and nothing has happened on the wires. -/
theorem acceptStep_writeWithParity_par {w : Word} {t : BitVec 6} {s : State} (hs : s.dispatch.slot3 = .populated)
    (h1 : 1 ≤ t.toNat) (h32 : t.toNat ≤ 32) :
    ∃ v, acceptStep (.writeWithParity w t) s = .next v ∧ v.par = writeParity w t.toNat ∧ v.trace = s.trace := by
  rw [acceptStep, admitTransport_of_legal (k := 3#2) hs h1 h32]
  exact ⟨_, rfl, rfl, rfl⟩

/-- Settles O23: the run ends with the parity cycle, whose bit acceptance has computed over the masked word. -/
theorem transmittedParityIsMaskedPopcount : Obligations.TransmittedParityIsMaskedPopcount := by
  intro w t s hs h1 h32
  refine ⟨⟨_, exec_writeWithParity_of_legal hs h1 h32, ?_⟩, acceptStep_writeWithParity_par hs h1 h32,
    count_add_writeParity_even w h32, fun hw => congrArg oddOnes (and_mask_of_high_zero hw)⟩
  have hnew : newEvents s (afterWriteWithParity w t s) = turnaroundShape .drive s ++ writeParShape s w t.toNat :=
    newEvents_of_append (List.append_assoc ..)
  rw [hnew]
  exact getLast?_filter_isDio_writeParShape s w t.toNat _

end Sys2Proof.Machine
end

section
/-! `configureTiming` from acceptance to the response: the encoding, the refusal on a fixed clock width link, and the
next state (spec/43_timing.md R154, R156). -/

namespace Sys2Proof

/-- Check (2) of R204 for `configureTiming`: its tick field is reserved. -/
theorem decode_configureTiming_of_ticks {t : BitVec 6} (wdata : Word) (profile : BitVec 224) (h : t ≠ 0#6) :
    decode ⟨0b101#3 ++ t, wdata, profile⟩ = .error .reservedField := by
  simp [decode, opField_append, ticksField_append, h]

end Sys2Proof

namespace Sys2Proof.Machine

/-- Check (3) of R204: a fixed clock width link has no profile to configure. -/
theorem admitTiming_of_fixed {run : State → State} {s : State} (h : s.link.fixedClkWidth = true) :
    admitTiming run s = .refused .timingAbsent :=
  if_pos h

/-- On a variable clock width link the command is carried out, from every state. -/
theorem admitTiming_of_variable {run : State → State} {s : State} (h : s.link.fixedClkWidth = false) :
    admitTiming run s = .next (run s) :=
  admitTiming_eq_next.2 ⟨h, rfl⟩

/-- `configureTiming p` from start to response. -/
theorem runConfigureTiming_eq (p : Profile) (s : State) :
    runConfigureTiming p s = { s with
      op := 0b101#3
      ticks := 0#6
      timing := p
      phase := .idle
      responses := s.responses ++ [⟨s.rdata, s.perr, s.status⟩] } := rfl

/-- Settles O31: the reserved tick field, the check of the link's variant, and the run from start to response. -/
theorem configureTimingReplacesTheProfile : Obligations.ConfigureTimingReplacesTheProfile := by
  refine ⟨fun t wdata profile => decode_configureTiming_of_ticks wdata profile, fun p s =>
    ⟨rfl, admitTiming_of_fixed, fun hv => ?_⟩⟩
  rw [← runConfigureTiming_eq]
  exact admitTiming_of_variable hv

end Sys2Proof.Machine
end

section
/-! `init` from acceptance to the response: the encoding and the next state (spec/44_dispatch_init.md R166, R170;
spec/30_encoding.md R72, R80). -/

namespace Sys2Proof

/-- A word with `OP` 100 is `init` or, by check (2) of R204, rejected for its tick field, whatever stands on the operand
ports (R73). -/
theorem decode_init_word (t : BitVec 6) (wdata : Word) (profile : BitVec 224) :
    decode ⟨0b100#3 ++ t, wdata, profile⟩ = if t = 0#6 then .ok .init else .error .reservedField := by
  simp [decode, opField_append, ticksField_append]

end Sys2Proof

namespace Sys2Proof.Machine

/-- `init` from start to response: the response shows `STATUS` as `init` has just written it. -/
theorem runInit_eq (s : State) :
    runInit s = { s with
      op := 0b100#3
      ticks := 0#6
      dispatch := ⟨.populated, .populated, .populated, .populated⟩
      dir := .float
      status := 0#1
      phase := .idle
      responses := s.responses ++ [⟨s.rdata, s.perr, 0#1⟩] } := rfl

/-- `init` is carried out from every state: no acceptance check can refuse it (R166). -/
theorem exec_init (s : State) : exec .init s = .next (runInit s) := rfl

/-- Settles O29: the word of `init` and its reserved tick field, and the run from start to response. -/
theorem initPopulatesAndRecordsFloat : Obligations.InitPopulatesAndRecordsFloat := by
  refine ⟨fun wdata profile => ?_, fun t wdata profile ht => ?_, fun s => ?_⟩
  · have hword : 0b100000000#9 = 0b100#3 ++ 0#6 := by decide
    rw [hword, decode_init_word, if_pos rfl]
  · rw [decode_init_word, if_neg ht]
  · rw [exec_init, runInit_eq]

end Sys2Proof.Machine
end

section
/-! The command word taken apart into `OP` and `TICKS`, and what `decode` answers for each (spec/30_encoding.md R71 to
R80). -/

namespace Sys2Proof

/-- A command word is its two fields. -/
theorem opField_append_ticksField (w : BitVec 9) : opField w ++ ticksField w = w := by
  refine BitVec.eq_of_getLsbD_eq fun i hi => ?_
  simp only [opField, ticksField, BitVec.getLsbD_append, BitVec.getLsbD_extractLsb', Nat.zero_add]
  split
  · next h => simp [h]
  · next h => rw [Nat.add_sub_cancel' (Nat.le_of_not_lt h)]; simp; omega

/-- Two words laid out as `OP`, `TICKS` are equal field by field. -/
theorem append_eq_append_iff {o p : BitVec 3} {t u : BitVec 6} : o ++ t = p ++ u ↔ o = p ∧ t = u := by
  refine ⟨fun h => ⟨?_, ?_⟩, fun ⟨ho, ht⟩ => ho ▸ ht ▸ rfl⟩
  · rw [← opField_append o t, h, opField_append]
  · rw [← ticksField_append o t, h, ticksField_append]

/-- The mask of a transport command's row leaves the `OP` field. -/
theorem selects_op_row (w : BitVec 9) (o : BitVec 3) :
    (Row.mk (o ++ 0#6) (0b111#3 ++ 0#6)).selects w = true ↔ opField w = o := by
  rw [Row.selects, beq_iff_eq, ← opField_append_ticksField w, BitVec.and_append, append_eq_append_iff,
    opField_append, BitVec.and_zero, show 0b111#3 = BitVec.allOnes 3 from rfl, BitVec.and_allOnes]
  exact and_iff_left rfl

/-- The mask of a management command's row leaves the whole word, whose `TICKS` field must be 0. -/
theorem selects_word_row (w : BitVec 9) (o : BitVec 3) :
    (Row.mk (o ++ 0#6) 0x1FF#9).selects w = true ↔ opField w = o ∧ ticksField w = 0#6 := by
  rw [Row.selects, beq_iff_eq, show 0x1FF#9 = BitVec.allOnes 9 from rfl, BitVec.and_allOnes]
  conv => lhs; rw [← opField_append_ticksField w, append_eq_append_iff]

/-- The seven counts under their names are a given profile. -/
theorem profileOfPort_eq_iff (q : BitVec 224) (p : Profile) :
    profileOfPort q = p ↔ p.turnaround = profileCount q 0 ∧ p.seqIn = profileCount q 1 ∧
      p.seqInParLoop = profileCount q 2 ∧ p.seqInParEnd = profileCount q 3 ∧ p.seqOut = profileCount q 4 ∧
      p.seqOutParLoop = profileCount q 5 ∧ p.seqOutParEnd = profileCount q 6 := by
  cases p
  simp [profileOfPort, eq_comm]

section DecodeByOpcode

variable {c : Command}

theorem decode_of_op0 (h : opField c.word = 0b000#3) : decode c = .ok (.read (ticksField c.word)) := by
  simp [decode, h]

theorem decode_of_op1 (h : opField c.word = 0b001#3) : decode c = .ok (.readWithParity (ticksField c.word)) := by
  simp [decode, h]

theorem decode_of_op2 (h : opField c.word = 0b010#3) : decode c = .ok (.write c.wdata (ticksField c.word)) := by
  simp [decode, h]

theorem decode_of_op3 (h : opField c.word = 0b011#3) :
    decode c = .ok (.writeWithParity c.wdata (ticksField c.word)) := by
  simp [decode, h]

theorem decode_of_op4 (h : opField c.word = 0b100#3) :
    decode c = if ticksField c.word = 0 then .ok .init else .error .reservedField := by
  simp [decode, h]

theorem decode_of_op5 (h : opField c.word = 0b101#3) :
    decode c = if ticksField c.word = 0 then .ok (.configureTiming (profileOfPort c.profile))
      else .error .reservedField := by
  simp [decode, h]

theorem decode_of_reserved (h : opField c.word = 0b110#3 ∨ opField c.word = 0b111#3) :
    decode c = .error .reservedOpcode := by
  rcases h with h | h <;> simp [decode, h]

/-- The eight values of `OP`: the six commands and the two reserved ones (R72, R79). -/
theorem opField_cases (w : BitVec 9) :
    opField w = 0b000#3 ∨ opField w = 0b001#3 ∨ opField w = 0b010#3 ∨ opField w = 0b011#3 ∨
      opField w = 0b100#3 ∨ opField w = 0b101#3 ∨ opField w = 0b110#3 ∨ opField w = 0b111#3 := by
  generalize opField w = o
  revert o
  decide

end DecodeByOpcode

/-- The encoded word's `OP` field. -/
theorem opField_encode (i : Instr) : opField (encode i).word = opCode i := opField_append ..

/-- The encoded word's `TICKS` field. -/
theorem ticksField_encode (i : Instr) : ticksField (encode i).word = ticksOf i := ticksField_append ..

/-- Settles O1: each command's own `OP` value leads `decode` back to it, with the operands the ports hold. -/
theorem decodeInvertsEncode : Obligations.DecodeInvertsEncode := by
  intro i
  have ht := ticksField_encode i
  cases i with
  | read t => rw [decode_of_op0 (opField_encode _), ht]; rfl
  | readWithParity t => rw [decode_of_op1 (opField_encode _), ht]; rfl
  | write w t => rw [decode_of_op2 (opField_encode _), ht]; rfl
  | writeWithParity w t => rw [decode_of_op3 (opField_encode _), ht]; rfl
  | init => exact (decode_of_op4 (opField_encode _)).trans (if_pos ht)
  | configureTiming p =>
    rw [(decode_of_op5 (opField_encode _)).trans (if_pos ht)]
    exact congrArg (Except.ok ∘ Instr.configureTiming) (profileOfPort_toPort p)

/-- A word selects the row of `i` exactly when its `OP` field is that of `i` and, where `i` takes no tick count, its
`TICKS` field is 0. -/
theorem rowOf_selects_iff (w : BitVec 9) (i : Instr) :
    (rowOf i).selects w = true ↔
      opField w = opCode i ∧ (Safety.isTransport i = false → ticksField w = 0#6) := by
  cases i with
  | init => exact (selects_word_row w 0b100#3).trans (by simp [opCode, Safety.isTransport])
  | configureTiming p => exact (selects_word_row w 0b101#3).trans (by simp [opCode, Safety.isTransport])
  | read t => exact (selects_op_row w 0b000#3).trans (by simp [opCode, Safety.isTransport])
  | readWithParity t => exact (selects_op_row w 0b001#3).trans (by simp [opCode, Safety.isTransport])
  | write v t => exact (selects_op_row w 0b010#3).trans (by simp [opCode, Safety.isTransport])
  | writeWithParity v t => exact (selects_op_row w 0b011#3).trans (by simp [opCode, Safety.isTransport])

/-- Settles O2: for each value of `OP` one row is left, and its operands are the fields `decode` reads. -/
theorem decodeFollowsTheOpcodeTable : Obligations.DecodeFollowsTheOpcodeTable := by
  intro c i
  rw [rowOf_selects_iff]
  rcases opField_cases c.word with h | h | h | h | h | h | h | h
  · rw [decode_of_op0 h, h]
    cases i <;> simp [opCode, Safety.isTransport, Safety.operandsOnPorts, ticksField, eq_comm]
  · rw [decode_of_op1 h, h]
    cases i <;> simp [opCode, Safety.isTransport, Safety.operandsOnPorts, ticksField, eq_comm]
  · rw [decode_of_op2 h, h]
    cases i <;> simp [opCode, Safety.isTransport, Safety.operandsOnPorts, ticksField, eq_comm, and_comm]
  · rw [decode_of_op3 h, h]
    cases i <;> simp [opCode, Safety.isTransport, Safety.operandsOnPorts, ticksField, eq_comm, and_comm]
  · rw [decode_of_op4 h, h]
    by_cases ht : ticksField c.word = 0#6 <;>
      cases i <;> simp [opCode, Safety.isTransport, Safety.operandsOnPorts, ht]
  · rw [decode_of_op5 h, h]
    by_cases ht : ticksField c.word = 0#6 <;>
      cases i <;> simp [opCode, Safety.isTransport, Safety.operandsOnPorts, ht, profileOfPort_eq_iff, profileCount]
  · rw [decode_of_reserved (.inl h), h]
    cases i <;> simp [opCode]
  · rw [decode_of_reserved (.inr h), h]
    cases i <;> simp [opCode]

/-- Settles O3: the table's rows, word by word. -/
theorem specExampleWordsDecode : Obligations.SpecExampleWordsDecode := by
  unfold Obligations.SpecExampleWordsDecode
  decide

end Sys2Proof

namespace Sys2Proof.Machine

/-- An event is read back from its record. -/
theorem eventOf_recordOf (e : Event) : eventOf (recordOf e) = some e := by
  rcases e with (_ | _) | (_ | _) | (_ | _) | (_ | _) | n <;> rfl

/-- The code of a record below 8 has no count, code 8 has one, and no other code is read. -/
theorem recordOf_of_eventOf {r : EventRecord} {e : Event} (h : eventOf r = some e) : r = recordOf e := by
  obtain ⟨code, count⟩ := r
  unfold eventOf at h
  split at h <;> cases h
  all_goals
    next hcode hcount =>
      simp only at hcode hcount
      subst hcount
      exact congrArg (EventRecord.mk · _) (BitVec.eq_of_toNat_eq hcode)

/-- Settles O4: reading inverts recording, and a record that is read is the record of what it is read as. -/
theorem eventRecordsAreUnambiguous : Obligations.EventRecordsAreUnambiguous :=
  fun e _ => ⟨recordOf_of_eventOf, fun h => h ▸ eventOf_recordOf e⟩

end Sys2Proof.Machine
end

section
/-! What `exec` answers, said once for the six commands: which states each is admitted in, the state it leaves and the
events it adds (spec/60_exceptions.md R204, 41_seq_in.md R110, R114, 42_seq_out.md R130, R134). Then the frames and
result laws that are read off it. -/

namespace Sys2Proof.Machine

open Sys2Proof.Safety

/-- What `read t` leaves for a legal count, as `runRead_eq` gives it. -/
def afterRead (t : BitVec 6) (s : State) : State :=
  { s with
    op := 0b000#3
    ticks := t
    dir := .float
    dioOe := if s.dir = .float then s.dioOe else .input
    clkO := false
    shift := wordOfSamples (samples s t.toNat)
    bitidx := t
    smp := sampleAt s (t.toNat - 1)
    phase := .idle
    rdata := wordOfSamples (samples s t.toNat)
    target := s.target.drop t.toNat
    draws := s.draws + (t.toNat - s.target.length)
    trace := s.trace ++ turnaroundShape .float s ++ readShape s (samples s t.toNat)
    responses := s.responses ++ [⟨wordOfSamples (samples s t.toNat), s.perr, s.status⟩] }

/-- What `write w, t` leaves for a legal count, as `runWrite_eq` gives it. -/
def afterWrite (w : Word) (t : BitVec 6) (s : State) : State :=
  { s with
    op := 0b010#3
    ticks := t
    wdata := w
    dir := .drive
    dioOe := if s.dir = .drive then s.dioOe else .output
    clkO := false
    dioO := w.getLsbD (t.toNat - 1)
    shift := w >>> t.toNat
    bitidx := t
    phase := .idle
    trace := s.trace ++ turnaroundShape .drive s ++ writeShape s w t.toNat
    responses := s.responses ++ [⟨s.rdata, s.perr, s.status⟩] }

/-- The state a command leaves where it is admitted. -/
def afterCommand (i : Instr) (s : State) : State :=
  match i with
  | .read t => afterRead t s
  | .readWithParity t => afterReadWithParity t s
  | .write w t => afterWrite w t s
  | .writeWithParity w t => afterWriteWithParity w t s
  | .init => runInit s
  | .configureTiming p => runConfigureTiming p s

/-- The events a command adds where it is admitted. -/
def commandEvents (i : Instr) (s : State) : List Event :=
  match i with
  | .read t => turnaroundShape .float s ++ readShape s (samples s t.toNat)
  | .readWithParity t => turnaroundShape .float s ++ readParShape s (samples s t.toNat) (sampleAt s t.toNat)
  | .write w t => turnaroundShape .drive s ++ writeShape s w t.toNat
  | .writeWithParity w t => turnaroundShape .drive s ++ writeParShape s w t.toNat
  | .init => []
  | .configureTiming _ => []

/-- What the acceptance checks (3) to (5) of R204 ask of a decoded command. -/
def admitted (s : State) : Instr → Prop
  | .read t => s.dispatch.slot0 = .populated ∧ 1 ≤ t.toNat ∧ t.toNat ≤ 32
  | .readWithParity t => s.dispatch.slot1 = .populated ∧ 1 ≤ t.toNat ∧ t.toNat ≤ 32
  | .write _ t => s.dispatch.slot2 = .populated ∧ 1 ≤ t.toNat ∧ t.toNat ≤ 32
  | .writeWithParity _ t => s.dispatch.slot3 = .populated ∧ 1 ≤ t.toNat ∧ t.toNat ≤ 32
  | .init => True
  | .configureTiming _ => s.link.fixedClkWidth = false

/-- A transport command's checks as conditions on the slot and the count. -/
theorem admitTransport_eq_next_legal {k : BitVec 2} {t : BitVec 6} {run : State → State} {s u : State} :
    admitTransport k t run s = .next u ↔
      (s.dispatch.slot k = .populated ∧ 1 ≤ t.toNat ∧ t.toNat ≤ 32) ∧ run s = u := by
  simp only [admitTransport_eq_next, ticksInRange_iff, and_assoc]

/-- Where `exec` answers a next state, the command was admitted and that state is `afterCommand`. -/
theorem exec_eq_next {i : Instr} {s u : State} : exec i s = .next u ↔ admitted s i ∧ afterCommand i s = u := by
  cases i with
  | read t =>
    refine (admitTransport_eq_next_legal (k := 0#2)).trans (and_congr_right fun ⟨_, h1, h32⟩ => ?_)
    rw [runRead_eq t s h1 h32]
    rfl
  | readWithParity t =>
    refine (admitTransport_eq_next_legal (k := 1#2)).trans (and_congr_right fun ⟨_, h1, h32⟩ => ?_)
    rw [runReadWithParity_eq t s h1 h32]
    rfl
  | write w t =>
    refine (admitTransport_eq_next_legal (k := 2#2)).trans (and_congr_right fun ⟨_, h1, _⟩ => ?_)
    rw [runWrite_eq w t s h1]
    rfl
  | writeWithParity w t =>
    refine (admitTransport_eq_next_legal (k := 3#2)).trans (and_congr_right fun _ => ?_)
    rw [runWriteWithParity_eq w t s]
    rfl
  | init => simp [exec_init, admitted, afterCommand]
  | configureTiming p => exact admitTiming_eq_next

/-- An admitted command is carried out. -/
theorem exec_of_admitted {i : Instr} {s : State} (h : admitted s i) : exec i s = .next (afterCommand i s) :=
  exec_eq_next.2 ⟨h, rfl⟩

section AfterCommand

variable (i : Instr) (s : State)

@[simp] theorem afterCommand_trace : (afterCommand i s).trace = s.trace ++ commandEvents i s := by
  cases i with
  | init => exact (List.append_nil _).symm
  | configureTiming p => exact (List.append_nil _).symm
  | _ => exact List.append_assoc ..

@[simp] theorem afterCommand_phase : (afterCommand i s).phase = .idle := by cases i <;> rfl
@[simp] theorem afterCommand_host : (afterCommand i s).host = s.host := by cases i <;> rfl
@[simp] theorem afterCommand_link : (afterCommand i s).link = s.link := by cases i <;> rfl

end AfterCommand

/-- The events a completed command adds. -/
theorem newEvents_of_exec {i : Instr} {s u : State} (h : exec i s = .next u) : newEvents s u = commandEvents i s := by
  obtain ⟨-, rfl⟩ := exec_eq_next.1 h
  exact newEvents_of_append (afterCommand_trace i s)

/-- A completed command takes nothing from the host's list and leaves the block idle. -/
theorem exec_idle_host {i : Instr} {s u : State} (h : exec i s = .next u) : u.phase = .idle ∧ u.host = s.host := by
  obtain ⟨-, rfl⟩ := exec_eq_next.1 h
  exact ⟨afterCommand_phase i s, afterCommand_host i s⟩

/-! ### Responses, frames, direction -/

/-- The one response a command adds shows the registers it leaves. -/
theorem afterCommand_responses (i : Instr) (s : State) :
    (afterCommand i s).responses = s.responses ++ [response (afterCommand i s)] := by
  cases i <;> rfl

/-- Settles O8: every command ends with its one response. -/
theorem eachCommandGivesOneResponse : Obligations.EachCommandGivesOneResponse := by
  intro i s u h
  obtain ⟨-, rfl⟩ := exec_eq_next.1 h
  have hr := afterCommand_responses i s
  exact ⟨afterCommand_phase i s, by simp [rspValid, hr], hr⟩

/-- Settles O18: the fields that `afterRead` and `afterReadWithParity` name leave these out. -/
theorem readersFrame : Obligations.ReadersFrame := by
  intro t s u h
  constructor
  · rcases h with h | h <;>
      · obtain ⟨-, rfl⟩ := exec_eq_next.1 h
        exact ⟨rfl, rfl, rfl, rfl, rfl, rfl, rfl⟩
  · intro hread
    obtain ⟨-, rfl⟩ := exec_eq_next.1 hread
    exact ⟨rfl, rfl⟩

/-- Settles O26: the fields that `afterWrite` and `afterWriteWithParity` name leave these out. -/
theorem writersFrame : Obligations.WritersFrame := by
  intro w t s u h
  constructor
  · rcases h with h | h <;>
      · obtain ⟨-, rfl⟩ := exec_eq_next.1 h
        exact ⟨rfl, rfl, rfl, rfl, rfl, rfl, rfl, rfl, rfl, rfl⟩
  · intro hwrite
    obtain ⟨-, rfl⟩ := exec_eq_next.1 hwrite
    rfl

/-- A transport command records the direction it requests, and switches the pad only if that is a change. -/
theorem afterCommand_of_requests {i : Instr} {d : Direction} (s : State) (h : requests i = some d) :
    (afterCommand i s).dir = d ∧ (afterCommand i s).dioOe = if d = s.dir then s.dioOe else d.mode := by
  cases i <;> cases h <;> simp only [eq_comm (b := s.dir)] <;> exact ⟨rfl, rfl⟩

/-- A management command leaves the latches. -/
theorem afterCommand_pins_of_management {i : Instr} (s : State) (h : requests i = none) :
    (afterCommand i s).pins = s.pins := by
  cases i <;> cases h <;> rfl

/-- Settles O46: the turnaround is the one place where a command writes the pad's mode, and all but `init` leave
`DIR` to it. -/
theorem directionFollowsRequests : Obligations.DirectionFollowsRequests := by
  intro i s u h
  obtain ⟨-, rfl⟩ := exec_eq_next.1 h
  refine ⟨fun d => afterCommand_of_requests s, fun hn => ?_, fun hi hn => ?_⟩
  · have hp := afterCommand_pins_of_management s hn
    exact ⟨congrArg Pins.oe hp, congrArg Pins.clk hp, congrArg Pins.dio hp⟩
  · cases i <;> cases hn
    · exact absurd rfl hi
    · rfl

/-! ### The result laws of the readers -/

/-- Bit `i` of a word assembled from `t` samples is sample `i`, below `t`. -/
theorem wordOfSamples_samples_getLsbD (s : State) (t : Nat) {i : Nat} (hi : i < 32) :
    (wordOfSamples (samples s t)).getLsbD i = (decide (i < t) && sampleAt s i) := by
  rw [wordOfSamples_getLsbD, decide_eq_true hi, Bool.true_and, List.getD_eq_getElem?_getD, samples_getElem?]
  split
  · next h => simp [h]
  · next h => simp [h]

/-- Settles O13: `RDATA` is the word of the samples. -/
theorem readBitsAreTheSamples : Obligations.ReadBitsAreTheSamples := fun t s hs h1 h32 =>
  ⟨afterRead t s, exec_of_admitted (i := .read t) ⟨hs, h1, h32⟩, rfl,
    fun _ => wordOfSamples_samples_getLsbD s t.toNat⟩

/-- The ones of an assembled word are the ones among its samples. -/
theorem popcount_wordOfSamples (s : State) {t : Nat} (h : t ≤ 32) :
    popcount (wordOfSamples (samples s t)) = (List.range t).countP (sampleAt s) := by
  rw [← countP_range_below _ h, popcount]
  refine List.countP_congr fun i hi => ?_
  rw [wordOfSamples_samples_getLsbD s t (List.mem_range.1 hi), Bool.and_comm]

/-- The flag is the parity of the number of ones among the data samples and the parity sample. -/
theorem parityMismatch_samples (s : State) {t : Nat} (h : t ≤ 32) :
    parityMismatch (wordOfSamples (samples s t)) (sampleAt s t) =
      ((List.range (t + 1)).countP (sampleAt s) % 2 == 1) := by
  rw [parityMismatch, oddOnes, popcount_wordOfSamples s h, List.range_succ, List.countP_append, List.countP_singleton]
  rcases Nat.mod_two_eq_zero_or_one ((List.range t).countP (sampleAt s)) with hc | hc <;>
    cases sampleAt s t <;> simp [Nat.add_mod, hc]

/-- The ones among the samples, counted in the list. -/
theorem count_true_samples (s : State) (n : Nat) : (samples s n).count true = (List.range n).countP (sampleAt s) := by
  simp [samples, List.count_eq_countP, List.countP_map, Function.comp_def]

/-- Settles O15: the flag is the parity of the count of ones, and a parity is an exclusive or. -/
theorem parityFlagIsOddSampleCount : Obligations.ParityFlagIsOddSampleCount := by
  intro t s hs h1 h32
  have hflag : (afterReadWithParity t s).perr = ((List.range (t.toNat + 1)).countP (sampleAt s) % 2 == 1) :=
    parityMismatch_samples s h32
  refine ⟨_, exec_readWithParity_of_legal hs h1 h32, fun _ => wordOfSamples_samples_getLsbD s t.toNat, ?_, ?_⟩
  · rw [hflag, samples, List.foldl_map, countP_odd, Bool.false_xor]
  · rw [hflag, count_true_samples]
    simp

/-! ### The dispatch table -/

/-- No command but `init` writes the dispatch table or `STATUS`. -/
theorem afterCommand_dispatch_status {i : Instr} (s : State) (hi : i ≠ .init) :
    (afterCommand i s).dispatch = s.dispatch ∧ (afterCommand i s).status = s.status := by
  cases i
  case init => exact absurd rfl hi
  all_goals exact ⟨rfl, rfl⟩

/-- A command keeps the table's invariant: `init` fills the table and clears `STATUS`, the others leave both. -/
theorem tableInv_afterCommand {s : State} (i : Instr) (h : tableInv s = true) : tableInv (afterCommand i s) = true := by
  by_cases hi : i = .init
  · subst hi
    rfl
  · obtain ⟨hd, hs⟩ := afterCommand_dispatch_status s hi
    rw [tableInv, tableWhole, hd, hs]
    exact h

/-- A populated table stays populated over a command. -/
theorem initialised_afterCommand {s : State} (i : Instr) (h : initialised s = true) :
    initialised (afterCommand i s) = true := by
  by_cases hi : i = .init
  · subst hi
    rfl
  · rw [initialised, (afterCommand_dispatch_status s hi).1]
    exact h

/-! ### Coherence and idle-low over a command -/

/-- A command keeps coherence, `init` where the pad is an input (R232). -/
theorem coherent_afterCommand {i : Instr} {s : State} (h : coherent s = true) (hi : i = .init → s.dioOe = .input) :
    coherent (afterCommand i s) = true := by
  rw [coherent, beq_iff_eq] at h ⊢
  cases hr : requests i with
  | some d =>
    obtain ⟨hdir, hoe⟩ := afterCommand_of_requests s hr
    rw [hdir, hoe]
    split
    · next hd => rw [h, hd]
    · rfl
  | none =>
    cases i <;> cases hr
    · exact hi rfl
    · exact h

/-- A command keeps idle-low. -/
theorem idleLow_afterCommand (i : Instr) {s : State} (h : idleLow s = true) : idleLow (afterCommand i s) = true := by
  cases i with
  | init => exact h
  | configureTiming p => exact h
  | _ => rfl

/-- Settles O30: `init` writes the record and not the pad. -/
theorem repeatedInitLosesCoherence : Obligations.RepeatedInitLosesCoherence := by
  intro s _ hoe
  refine ⟨_, exec_init s, rfl, hoe, rfl, ?_, turnaround_of_recorded rfl⟩
  simp [coherent, runInit_eq, hoe, Direction.mode]

end Sys2Proof.Machine
end

section
/-! One step of the block (spec/30_encoding.md R76, 45_microsequencer.md R180): what an idle block does with the
presented command, and what every phase of a command in flight keeps and performs. -/

namespace Sys2Proof.Machine

open Sys2Proof.Safety

/-! ### An idle block -/

/-- An idle block with nothing presented waits. -/
theorem step_of_no_command {s : State} (h : s.phase = .idle) (hh : s.host = []) : step s = .next s := by
  simp [step, h, hh]

/-- An idle block runs the presented command. -/
theorem step_of_decode_ok {s : State} {c : Command} {rest : List Command} {i : Instr} (h : s.phase = .idle)
    (hh : s.host = c :: rest) (hd : decode c = .ok i) : step s = exec i { s with host := rest } := by
  simp [step, h, hh, hd]

/-- An idle block refuses a presented word that decodes to no command. -/
theorem step_of_decode_error {s : State} {c : Command} {rest : List Command} {r : Reject} (h : s.phase = .idle)
    (hh : s.host = c :: rest) (hd : decode c = .error r) : step s = .refused (refusalOf r) := by
  simp [step, h, hh, hd]

/-- A command in flight goes on by one phase. -/
theorem step_of_busy {s : State} (h : s.phase ≠ .idle) : step s = .next (phaseStep s) := if_neg h

/-- Where a step answers a next state: nothing was presented, or a command has been carried out, or one in flight has
gone on by one phase. -/
theorem step_eq_next_cases {s u : State} (h : step s = .next u) :
    (s.phase = .idle ∧ s.host = [] ∧ u = s) ∨
    (s.phase = .idle ∧ ∃ c rest i, s.host = c :: rest ∧ decode c = .ok i ∧ exec i { s with host := rest } = .next u) ∨
    (s.phase ≠ .idle ∧ u = phaseStep s) := by
  by_cases hp : s.phase = .idle
  · cases hh : s.host with
    | nil =>
      rw [step_of_no_command hp hh] at h
      exact .inl ⟨hp, rfl, (Host.Outcome.next.inj h).symm⟩
    | cons c rest =>
      cases hd : decode c with
      | ok i =>
        rw [step_of_decode_ok hp hh hd] at h
        exact .inr (.inl ⟨hp, c, rest, i, rfl, hd, h⟩)
      | error r =>
        rw [step_of_decode_error hp hh hd] at h
        cases h
  · rw [step_of_busy hp] at h
    exact .inr (.inr ⟨hp, (Host.Outcome.next.inj h).symm⟩)

/-- Settles O5: the two idle cases of `step`. -/
theorem stepRunsThePresentedCommand : Obligations.StepRunsThePresentedCommand := fun _ h =>
  ⟨fun _ _ _ hh hd => step_of_decode_ok h hh hd, step_of_no_command h⟩

/-- Checks (4) and (5) of R204 and completion, for a transport command of slot `k`. -/
theorem transport_checks {i : Instr} {k : BitVec 2} {t : BitVec 6} {run : State → State} {s : State}
    (he : exec i s = admitTransport k t run s) :
    if s.dispatch.slot k = .empty then exec i s = .refused .notInitialised
    else if t.toNat = 0 ∨ 32 < t.toNat then exec i s = .refused .ticksOutOfRange
    else ∃ u, exec i s = .next u ∧ u.phase = .idle ∧ u.host = s.host := by
  split
  · next h => rw [he, admitTransport_of_empty h]
  · next h =>
    have hp : s.dispatch.slot k = .populated := by
      cases hk : s.dispatch.slot k with
      | empty => exact absurd hk h
      | populated => rfl
    split
    · next ht => rw [he, admitTransport_of_outOfRange hp ht]
    · next ht =>
      have hnext := he.trans (admitTransport_of_legal hp (by omega) (by omega))
      exact ⟨_, hnext, exec_idle_host hnext⟩

/-- Check (3) of R204 and completion, for `configureTiming`. -/
theorem timing_checks (p : Profile) (s : State) :
    if s.link.fixedClkWidth = true then exec (.configureTiming p) s = .refused .timingAbsent
    else ∃ u, exec (.configureTiming p) s = .next u ∧ u.phase = .idle ∧ u.host = s.host := by
  split
  · next h => exact admitTiming_of_fixed h
  · next h =>
    have hnext := exec_of_admitted (i := .configureTiming p) (Bool.eq_false_iff.2 h)
    exact ⟨_, hnext, exec_idle_host hnext⟩

/-- `init` completes from every state. -/
theorem init_completes (s : State) : ∃ u, exec .init s = .next u ∧ u.phase = .idle ∧ u.host = s.host :=
  ⟨_, exec_init s, exec_idle_host (exec_init s)⟩

/-- A nonzero tick field has a nonzero value. -/
theorem ticks_ne_zero {t : BitVec 6} (h : t ≠ 0) : t.toNat ≠ 0 := fun hz => h (BitVec.eq_of_toNat_eq hz)

/-- Settles O6: the value of `OP` says what the word decodes to, and the command's own checks say the rest. -/
theorem acceptanceChecksInOrder : Obligations.AcceptanceChecksInOrder := by
  intro s c rest hp hh op t
  have hop : op = opField c.word := rfl
  have ht : t = (ticksField c.word).toNat := rfl
  clear_value op t
  subst hop ht
  rcases opField_cases c.word with h | h | h | h | h | h | h | h
  · simpa [h, DispatchTable.slot, step_of_decode_ok hp hh (decode_of_op0 h)] using
      transport_checks (i := .read _) (k := 0#2) (s := { s with host := rest }) rfl
  · simpa [h, DispatchTable.slot, step_of_decode_ok hp hh (decode_of_op1 h)] using
      transport_checks (i := .readWithParity _) (k := 1#2) (s := { s with host := rest }) rfl
  · simpa [h, DispatchTable.slot, step_of_decode_ok hp hh (decode_of_op2 h)] using
      transport_checks (i := .write _ _) (k := 2#2) (s := { s with host := rest }) rfl
  · simpa [h, DispatchTable.slot, step_of_decode_ok hp hh (decode_of_op3 h)] using
      transport_checks (i := .writeWithParity _ _) (k := 3#2) (s := { s with host := rest }) rfl
  · have hd := decode_of_op4 h
    by_cases h0 : ticksField c.word = 0
    · rw [if_pos h0] at hd
      simpa [h, h0, step_of_decode_ok hp hh hd] using init_completes { s with host := rest }
    · rw [if_neg h0] at hd
      simpa [h, ticks_ne_zero h0, refusalOf] using step_of_decode_error hp hh hd
  · have hd := decode_of_op5 h
    by_cases h0 : ticksField c.word = 0
    · rw [if_pos h0] at hd
      simpa [h, h0, step_of_decode_ok hp hh hd] using timing_checks _ { s with host := rest }
    · rw [if_neg h0] at hd
      simpa [h, ticks_ne_zero h0, refusalOf] using step_of_decode_error hp hh hd
  · rw [if_pos (.inl h)]
    exact step_of_decode_error hp hh (decode_of_reserved (.inl h))
  · rw [if_pos (.inr h)]
    exact step_of_decode_error hp hh (decode_of_reserved (.inr h))

/-! ### A command in flight -/

/-- From `s` to `u` the events `es` were performed and nothing was accepted: the host's list, the operand registers, the
timing profile, the dispatch table, `STATUS` and the link are kept, and the latches follow the events. -/
structure Performs (es : List Event) (s u : State) : Prop where
  host : u.host = s.host
  op : u.op = s.op
  ticks : u.ticks = s.ticks
  wdata : u.wdata = s.wdata
  timing : u.timing = s.timing
  dispatch : u.dispatch = s.dispatch
  link : u.link = s.link
  status : u.status = s.status
  trace : u.trace = s.trace ++ es
  pins : u.pins = s.pins.afterAll es

/-- A write of working registers, results, the recorded direction and the phase performs nothing further. -/
theorem Performs.registers {es : List Event} {s u v : State} (h : Performs es s u)
    (hv : v = { u with dir := v.dir, shift := v.shift, bitidx := v.bitidx, phase := v.phase, rdata := v.rdata,
                       perr := v.perr, responses := v.responses }) : Performs es s v := by
  rw [hv]
  exact ⟨h.host, h.op, h.ticks, h.wdata, h.timing, h.dispatch, h.link, h.status, h.trace, h.pins⟩

/-- Nothing performed. -/
theorem performs_nothing (s : State) : Performs [] s s :=
  ⟨rfl, rfl, rfl, rfl, rfl, rfl, rfl, rfl, (List.append_nil _).symm, rfl⟩

theorem performs_pinWriteClk (l : Level) (s : State) : Performs [.clk l] s (pinWriteClk l s) :=
  ⟨rfl, rfl, rfl, rfl, rfl, rfl, rfl, rfl, rfl, rfl⟩

theorem performs_pinWriteDio (v : Level) (s : State) : Performs [.dio v] s (pinWriteDio v s) :=
  ⟨rfl, rfl, rfl, rfl, rfl, rfl, rfl, rfl, rfl, rfl⟩

theorem performs_pinMode (m : PinMode) (s : State) : Performs [.mode m] s (pinMode m s) :=
  ⟨rfl, rfl, rfl, rfl, rfl, rfl, rfl, rfl, rfl, rfl⟩

theorem performs_sampleToSmp (s : State) : Performs [.sample (answer s)] s (sampleToSmp s) := by
  rw [sampleToSmp_eq]
  exact ⟨rfl, rfl, rfl, rfl, rfl, rfl, rfl, rfl, rfl, rfl⟩

theorem performs_sampleToPar (s : State) : Performs [.sample (answer s)] s (sampleToPar s) := by
  rw [sampleToPar_eq]
  exact ⟨rfl, rfl, rfl, rfl, rfl, rfl, rfl, rfl, rfl, rfl⟩

/-- A wait leaves the latches. -/
@[simp] theorem afterAll_waitShape (p : Pins) (l : Config.Link) (n : DelayCount) : p.afterAll (waitShape l n) = p := by
  unfold waitShape
  split <;> rfl

/-- A wait is at most one event. -/
theorem waitShape_length_le (l : Config.Link) (n : DelayCount) : (waitShape l n).length ≤ 1 := by
  unfold waitShape
  split <;> simp

theorem performs_wait (n : DelayCount) (s : State) : Performs (waitShape s.link n) s (wait n s) := by
  rw [wait_eq]
  exact ⟨rfl, rfl, rfl, rfl, rfl, rfl, rfl, rfl, rfl, (afterAll_waitShape ..).symm⟩

/-- The event of each phase: none in `Idle` and in the check of the direction, and none for a wait on a fixed clock width
link (R180 to R186). -/
def phaseEvents (s : State) : List Event :=
  match s.phase with
  | .idle | .taCheck => []
  | .taMi => [.mode .input]
  | .taMo => [.mode .output]
  | .taSet | .taSet2 | .rdSet | .rpSet | .rpPset | .wrSet | .wpSet | .wpPset | .wpPset2 => [.clk true]
  | .taClr | .rdClr | .rpClr | .rpPclr | .rpPend | .wrClr | .wrEnd | .wpClr | .wpPclr | .wpPend => [.clk false]
  | .rdSmp | .rpSmp | .rpPsmp => [.sample (answer s)]
  | .wrPre | .wrDrv | .wpPre | .wpDrv => [.dio (s.shift.getLsbD 0)]
  | .wpPdrv => [.dio s.par]
  | .taWait => waitShape s.link s.timing.turnaround
  | .rdWait => waitShape s.link s.timing.seqIn
  | .rpWait => waitShape s.link s.timing.seqInParLoop
  | .rpPwait => waitShape s.link s.timing.seqInParEnd
  | .wrWait => waitShape s.link s.timing.seqOut
  | .wpWait | .wpPwait1 => waitShape s.link s.timing.seqOutParLoop
  | .wpPwait2 => waitShape s.link s.timing.seqOutParEnd

/-- A phase has at most one event. -/
theorem phaseEvents_length_le (s : State) : (phaseEvents s).length ≤ 1 := by
  unfold phaseEvents
  split <;> simp [waitShape_length_le]

/-- What each phase performs: its one primitive, then writes of working registers, results, direction and phase. -/
theorem phaseStep_performs (s : State) : Performs (phaseEvents s) s (phaseStep s) := by
  cases h : s.phase <;>
    simp only [phaseEvents, phaseStep, turnaroundPhase, readPhase, readParPhase, writePhase, writeParPhase, h]
  case idle => exact performs_nothing s
  case taCheck => split_ifs <;> exact (performs_nothing s).registers rfl
  case taMi => exact (performs_pinMode .input s).registers rfl
  case taMo => exact (performs_pinMode .output s).registers rfl
  case taClr => split_ifs <;> exact (performs_pinWriteClk false s).registers rfl
  case rdClr => split_ifs <;> exact (performs_pinWriteClk false s).registers rfl
  case rdSet | rpSet => rw [accumulate_eq]; exact (performs_pinWriteClk true s).registers rfl
  case taSet | taSet2 | rpPset | wrSet | wpSet | wpPset | wpPset2 =>
    exact (performs_pinWriteClk true s).registers rfl
  case rpClr | rpPclr | rpPend | wrClr | wrEnd | wpClr | wpPclr | wpPend =>
    exact (performs_pinWriteClk false s).registers rfl
  case rdSmp | rpSmp => exact (performs_sampleToSmp s).registers rfl
  case rpPsmp => exact (performs_sampleToPar s).registers rfl
  case wrPre | wrDrv | wpPre | wpDrv | wpPdrv => exact (performs_pinWriteDio _ s).registers rfl
  case taWait | rdWait | rpWait | rpPwait | wrWait | wpWait | wpPwait1 | wpPwait2 =>
    exact (performs_wait _ s).registers rfl

/-- Settles O7: a busy step is a phase step, whose frame and events `phaseStep_performs` gives. -/
theorem busyBlockTakesNoCommand : Obligations.BusyBlockTakesNoCommand := by
  intro s h
  have p := phaseStep_performs s
  refine ⟨_, step_of_busy h, p.host, p.op, p.ticks, p.wdata, p.timing, p.dispatch, p.link, p.status, ?_⟩
  rcases Nat.le_one_iff_eq_zero_or_eq_one.1 (phaseEvents_length_le s) with hl | hl
  · exact .inl (by rw [p.trace, List.length_eq_zero_iff.1 hl, List.append_nil])
  · obtain ⟨e, he⟩ := List.length_eq_one_iff.1 hl
    exact .inr ⟨e, he ▸ p.trace⟩

/-! ### Whole-machine rules -/

/-- Settles O44: `init` fills the table and clears `STATUS`; every other step leaves both. -/
theorem stepKeepsTableWhole : Obligations.StepKeepsTableWhole := by
  intro s u hinv h
  rcases step_eq_next_cases h with ⟨-, -, rfl⟩ | ⟨-, c, rest, i, -, -, hx⟩ | ⟨-, rfl⟩
  · exact hinv
  · obtain ⟨-, rfl⟩ := exec_eq_next.1 hx
    exact tableInv_afterCommand (s := { s with host := rest }) i hinv
  · have p := phaseStep_performs s
    rw [tableInv, tableWhole, p.dispatch, p.status]
    exact hinv

/-- Settles O45: likewise for the link and a populated table. -/
theorem onlyInitWritesTheTable : Obligations.OnlyInitWritesTheTable := by
  refine ⟨fun s u h => ?_, fun i s u h hi => ?_⟩
  · rcases step_eq_next_cases h with ⟨-, -, rfl⟩ | ⟨-, c, rest, i, -, -, hx⟩ | ⟨-, rfl⟩
    · exact ⟨rfl, id⟩
    · obtain ⟨-, rfl⟩ := exec_eq_next.1 hx
      exact ⟨afterCommand_link i _, initialised_afterCommand (s := { s with host := rest }) i⟩
    · have p := phaseStep_performs s
      exact ⟨p.link, fun hs => by rw [initialised, p.dispatch]; exact hs⟩
  · obtain ⟨-, rfl⟩ := exec_eq_next.1 h
    exact (afterCommand_dispatch_status s hi).1

/-- What the host's duties ask of a transport command admits it; `init` and `configureTiming` likewise. -/
theorem admitted_of_withinContract {s : State} {i : Instr} (h : withinContract s i = true) : admitted s i := by
  have slots (hs : initialised s = true) : s.dispatch = DispatchTable.full := eq_of_beq hs
  have counts {t : BitVec 6} (ht : legalTicks t = true) : 1 ≤ t.toNat ∧ t.toNat ≤ 32 :=
    (ticksInRange_iff t).1 ht
  cases i with
  | init => trivial
  | configureTiming p => exact Bool.eq_false_of_not_eq_true' h
  | _ =>
    obtain ⟨hs, ht⟩ := Bool.and_eq_true_iff.1 h
    exact ⟨slots hs ▸ rfl, counts ht⟩

/-- Settles O49: the host's duties admit the command, and it keeps coherence and idle-low. -/
theorem contractCommandsCompleteReady : Obligations.ContractCommandsCompleteReady := by
  intro s c rest i hready hh hd hc
  simp only [ready, Bool.and_eq_true, beq_iff_eq] at hready
  obtain ⟨⟨hp, hco⟩, hlow⟩ := hready
  have hadm : admitted { s with host := rest } i := admitted_of_withinContract (by cases i <;> exact hc)
  refine ⟨_, (step_of_decode_ok hp hh hd).trans (exec_of_admitted hadm), ?_, afterCommand_host i _⟩
  have hco' : coherent (afterCommand i { s with host := rest }) = true :=
    coherent_afterCommand hco fun hi => by subst hi; exact eq_of_beq hc
  simp [ready, hco', idleLow_afterCommand i (s := { s with host := rest }) hlow]

/-- Settles O50: `stepLink` sets element `k` of the list and no other. -/
theorem linksShareNothing : Obligations.LinksShareNothing := by
  intro k ls ms h
  obtain ⟨s, hk, hs⟩ := Option.map_eq_some_iff.1 h
  have hlt : k < ls.length := (List.getElem?_eq_some_iff.1 hk).1
  split at hs
  · next u hu =>
    cases hs
    exact ⟨List.length_set, fun j hj => List.getElem?_set_ne hj.symm, s, u, hk, hu, List.getElem?_set_self hlt⟩
  · cases hs
  · cases hs

/-! ### Turnaround and reset -/

/-- Settles O10: the pulse's shape on each variant, with the pad switched before it or after it. -/
theorem turnaroundPulsesOncePerChange : Obligations.TurnaroundPulsesOncePerChange := by
  intro s
  refine ⟨?_, ?_, ?_, ?_⟩ <;>
    · intro hd hw
      simp [turnaround_eq, turnaroundShape, pulseShape, setShape, waitShape, Direction.mode, hd, hw]

/-- Settles O47: the two resets differ in the inputs and the link alone. -/
theorem resetLeavesTheStatedState : Obligations.ResetLeavesTheStatedState := by
  intro v s
  refine ⟨fun u hu => ?_, resetOf_link v, hardReset_link s v⟩
  rcases hu with rfl | rfl <;> exact ⟨rfl, rfl, rfl, rfl, rfl, rfl, rfl, rfl, rfl⟩

/-- In `Idle` the flight invariant is coherence and idle-low. -/
theorem flightInv_of_idle {s : State} (h : s.phase = .idle) : flightInv s = (coherent s && idleLow s) := by
  simp [flightInv, h, clockFound, padFound, ticksFound, ownerSlot, coherent, idleLow, Bool.and_comm]

/-- Settles O48: the launch premise is coherence and idle-low at reset, and the reset table is all empty. -/
theorem resetMeetsTheInvariants : Obligations.ResetMeetsTheInvariants := by
  have launched (v : ResetValues) (hc : v.clkO = false) (ho : v.dioOe = .input) :
      launchPremise (State.resetOf v) = true ∧ flightInv (State.resetOf v) = true := by
    rw [flightInv_of_idle (resetOf_phase v)]
    simp [launchPremise, coherent, idleLow, Direction.mode, hc, ho]
  have whole (v : ResetValues) (hs : v.status = 0#1) : tableInv (State.resetOf v) = true := by
    simp [tableInv, tableWhole, DispatchTable.none, hs]
  exact ⟨launched, whole, (launched _ rfl rfl).2, whole _ rfl⟩

end Sys2Proof.Machine
end

section
/-! The flight invariant over every step (spec/10_state.md R38, 45_microsequencer.md R183 to R186): in the turnaround, in
the phases of each operation, and at acceptance. -/

namespace Sys2Proof.Machine

open Sys2Proof.Safety

/-! ### What the invariant says in a phase -/

/-- The clock level `l` is what phase `p` is to find. -/
def ClockFits (p : Phase) (l : Level) : Prop := clockFound p = none ∨ clockFound p = some l

/-- Inside the operation of slot `k`: that operation stands in `OP`, its direction is recorded and the pad agrees, and the
count is in range. -/
structure Owned (k : BitVec 2) (s : State) : Prop where
  op : s.op = k.setWidth 3
  dir : s.dir = requestedDir s.op
  pad : s.dioOe = s.dir.mode
  ticks : ticksInRange s.ticks = true

/-- No slot number has bit 2. -/
theorem slot_op_high (k : BitVec 2) : (k.setWidth 3).getLsbD 2 = false := by
  revert k
  decide

/-- In a phase of slot `k` the invariant is `Owned`, the clock level and the tick count. -/
theorem flightInv_iff_of_owner {k : BitVec 2} {s : State} (h : ownerSlot s.phase = some k) :
    flightInv s = true ↔ Owned k s ∧ ClockFits s.phase s.clkO ∧ ticksFound s = true := by
  have hpad : padFound s = (s.dir == requestedDir s.op && s.dioOe == s.dir.mode) := by
    unfold padFound
    cases hp : s.phase <;> rw [hp] at h <;> cases h
  have hidle : (s.phase == .idle) = false := beq_eq_false_iff_ne.2 fun hp => by rw [hp] at h; cases h
  have hgroup : flightInv s = true ↔ ClockFits s.phase s.clkO ∧ (s.dir = requestedDir s.op ∧ s.dioOe = s.dir.mode) ∧
      ticksFound s = true ∧ s.op = k.setWidth 3 ∧ ticksInRange s.ticks = true ∧ s.op.getLsbD 2 = false := by
    unfold flightInv ClockFits
    rw [h, hpad, hidle]
    cases clockFound s.phase <;> simp [and_assoc, eq_comm (a := s.clkO)]
  rw [hgroup]
  constructor
  · rintro ⟨hc, ⟨hd, ho⟩, ht, hop, hr, -⟩
    exact ⟨⟨hop, hd, ho, hr⟩, hc, ht⟩
  · rintro ⟨⟨hop, hd, ho, hr⟩, hc, ht⟩
    exact ⟨hc, ⟨hd, ho⟩, ht, hop, hr, hop ▸ slot_op_high k⟩

/-- In a turnaround phase the invariant is the clock level, the pad, a loop not begun and a transport operation. -/
theorem flightInv_iff_of_turnaround {s : State} (h : ownerSlot s.phase = none) (hi : s.phase ≠ .idle) :
    flightInv s = true ↔ clockFound s.phase = some s.clkO ∧ padFound s = true ∧ s.bitidx = 0 ∧
      ticksInRange s.ticks = true ∧ s.op.getLsbD 2 = false := by
  cases hp : s.phase <;> rw [hp] at h <;> cases h
  case idle => exact absurd hp hi
  all_goals simp [flightInv, clockFound, ticksFound, ownerSlot, hp, and_assoc]

/-- `Owned` reads four registers. -/
theorem Owned.congr {k : BitVec 2} {s u : State} (h : Owned k s)
    (hu : (u.op, u.ticks, u.dir, u.dioOe) = (s.op, s.ticks, s.dir, s.dioOe)) : Owned k u := by
  simp only [Prod.mk.injEq] at hu
  obtain ⟨hop, ht, hd, ho⟩ := hu
  exact ⟨hop ▸ h.op, hop ▸ hd ▸ h.dir, ho ▸ hd ▸ h.pad, ht ▸ h.ticks⟩

/-- Going to a phase of the same operation. -/
theorem Owned.flight_goto {k : BitVec 2} {s v : State} {p : Phase} (h : Owned k s)
    (hv : (v.op, v.ticks, v.dir, v.dioOe) = (s.op, s.ticks, s.dir, s.dioOe)) (hp : ownerSlot p = some k)
    (hc : ClockFits p v.clkO) (ht : ticksFound (goto p v) = true) : flightInv (goto p v) = true :=
  (flightInv_iff_of_owner (s := goto p v) hp).2 ⟨h.congr hv, hc, ht⟩

/-- The end of an operation, with the clock low. -/
theorem Owned.flight_complete {k : BitVec 2} {s v : State} (h : Owned k s)
    (hv : (v.op, v.ticks, v.dir, v.dioOe) = (s.op, s.ticks, s.dir, s.dioOe)) (hc : v.clkO = false) :
    flightInv (complete v) = true := by
  rw [flightInv_of_idle (complete_phase v)]
  simp [coherent, idleLow, (h.congr hv).pad, hc]

/-! ### The tick count -/

/-- Inside the loop, after the count of a tick: 1 to `TICKS`. -/
def Counted (s : State) : Prop := 1 ≤ s.bitidx.toNat ∧ s.bitidx.toNat ≤ s.ticks.toNat

theorem moreTicks_iff (s : State) : moreTicks s = true ↔ s.bitidx.toNat < s.ticks.toNat := decide_eq_true_iff

/-- Counting a tick that is there. -/
theorem counted_of_moreTicks {s u : State} (h : moreTicks s = true) (hb : u.bitidx = s.bitidx + 1)
    (ht : u.ticks = s.ticks) : Counted u := by
  rw [moreTicks_iff] at h
  have : (s.bitidx + 1).toNat = s.bitidx.toNat + 1 := by
    rw [BitVec.toNat_add]
    exact Nat.mod_eq_of_lt (by have := s.ticks.isLt; simp; omega)
  simp only [Counted, hb, ht, this]
  omega

/-- After the last tick the count is `TICKS`. -/
theorem bitidx_eq_ticks_of_counted {s : State} (h : Counted s) (hm : ¬ moreTicks s = true) : s.bitidx = s.ticks := by
  rw [moreTicks_iff] at hm
  exact BitVec.eq_of_toNat_eq (Nat.le_antisymm h.2 (Nat.le_of_not_lt hm))

/-- A loop not begun has a tick to come. -/
theorem moreTicks_of_zero {s : State} (hb : s.bitidx = 0) (ht : ticksInRange s.ticks = true) : moreTicks s = true := by
  rw [moreTicks_iff, hb]
  exact ((ticksInRange_iff _).1 ht).1

/-! ### The turnaround -/

/-- `OP` is the number of the slot whose operation its first phase belongs to. -/
theorem firstPhase_owner {op : BitVec 3} (h : op.getLsbD 2 = false) :
    ∃ k : BitVec 2, ownerSlot (firstPhase op) = some k ∧ op = k.setWidth 3 ∧ clockFound (firstPhase op) ≠ some true := by
  revert op
  decide

/-- The first phase of each operation finds a loop not begun. -/
theorem ticksFound_goto_firstPhase {s : State} (hb : s.bitidx = 0) (ht : ticksInRange s.ticks = true) :
    ticksFound (goto (firstPhase s.op) s) = true := by
  have hm := moreTicks_of_zero hb ht
  cases h1 : s.op.getLsbD 1 <;> cases h0 : s.op.getLsbD 0 <;> simp only [firstPhase, h1, h0]
  · exact hm
  · exact hm
  · exact beq_iff_eq.2 hb
  · exact beq_iff_eq.2 hb

/-- Entering the operation in `OP` with the direction it requests, the pad agreed, and the clock low. -/
theorem flight_goto_firstPhase {s : State} (hc : s.clkO = false) (hd : s.dir = requestedDir s.op)
    (ho : s.dioOe = s.dir.mode) (hb : s.bitidx = 0) (ht : ticksInRange s.ticks = true)
    (hop : s.op.getLsbD 2 = false) : flightInv (goto (firstPhase s.op) s) = true := by
  obtain ⟨k, hk, hopk, hlow⟩ := firstPhase_owner hop
  have hfit : ClockFits (firstPhase s.op) s.clkO := by
    unfold ClockFits
    cases hf : clockFound (firstPhase s.op) with
    | none => exact .inl rfl
    | some l =>
      cases l
      · exact .inr (congrArg some hc.symm)
      · exact absurd hf hlow
  exact Owned.flight_goto ⟨hopk, hd, ho, ht⟩ rfl hk hfit (ticksFound_goto_firstPhase hb ht)

/-- Going to a turnaround phase. -/
theorem flight_goto_turnaround {s v : State} {p : Phase} (hv : (v.bitidx, v.ticks, v.op) = (s.bitidx, s.ticks, s.op))
    (hb : s.bitidx = 0) (ht : ticksInRange s.ticks = true) (hop : s.op.getLsbD 2 = false)
    (hp : ownerSlot p = none ∧ p ≠ .idle) (hc : clockFound p = some v.clkO) (hpad : padFound (goto p v) = true) :
    flightInv (goto p v) = true := by
  simp only [Prod.mk.injEq] at hv
  obtain ⟨hvb, hvt, hvo⟩ := hv
  exact (flightInv_iff_of_turnaround (s := goto p v) hp.1 hp.2).2 ⟨hc, hpad, hvb.trans hb, hvt ▸ ht, hvo ▸ hop⟩

/-- Every turnaround phase. -/
theorem flight_turnaround {s : State} (hs : flightInv s = true) (h : ownerSlot s.phase = none) (hi : s.phase ≠ .idle) :
    flightInv (phaseStep s) = true := by
  obtain ⟨hc, hpad, hb, ht, hop⟩ := (flightInv_iff_of_turnaround h hi).1 hs
  have go {v : State} (p : Phase) (hv : (v.bitidx, v.ticks, v.op) = (s.bitidx, s.ticks, s.op)) :=
    flight_goto_turnaround (p := p) hv hb ht hop
  have first {v : State} (hv : (v.bitidx, v.ticks, v.op) = (s.bitidx, s.ticks, s.op)) (hclk : v.clkO = false)
      (hd : v.dir = requestedDir v.op) (ho : v.dioOe = v.dir.mode) : flightInv (goto (firstPhase v.op) v) = true := by
    simp only [Prod.mk.injEq] at hv
    obtain ⟨hvb, hvt, hvo⟩ := hv
    exact flight_goto_firstPhase hclk hd ho (hvb.trans hb) (hvt ▸ ht) (hvo ▸ hop)
  cases hp : s.phase <;> rw [hp] at h <;> cases h <;>
    simp only [hp, clockFound, Option.some.injEq, padFound, Bool.and_eq_true, beq_iff_eq, bne_iff_ne] at hc hpad
  case idle => exact absurd hp hi
  case taCheck =>
    rw [phaseStep_taCheck hp]
    split_ifs with hr hr'
    · exact first rfl hc.symm hr.symm hpad
    · have hd : s.dir = .drive := by cases hd : s.dir <;> simp_all
      exact go .taMi rfl ⟨rfl, nofun⟩ (hc ▸ rfl) (by simp [padFound, goto, hd, hr', hpad, Direction.mode])
    · have hd : s.dir = .float := by cases hd : s.dir <;> cases hq : requestedDir s.op <;> simp_all
      exact go .taSet rfl ⟨rfl, nofun⟩ (hc ▸ rfl) (by simp [padFound, goto, hd, Ne.symm hr', hpad, Direction.mode])
  case taMi =>
    obtain ⟨⟨hd, hr⟩, -⟩ := hpad
    rw [phaseStep_taMi hp]
    exact go .taSet rfl ⟨rfl, nofun⟩ (hc ▸ rfl) (by simp [padFound, goto, hd, hr])
  case taSet =>
    rw [phaseStep_taSet hp, byWidth]
    split
    · exact go .taSet2 rfl ⟨rfl, nofun⟩ rfl (by simp [padFound, goto, hpad])
    · exact go .taWait rfl ⟨rfl, nofun⟩ rfl (by simp [padFound, goto, hpad])
  case taSet2 =>
    rw [phaseStep_taSet2 hp]
    exact go .taClr rfl ⟨rfl, nofun⟩ rfl (by simp [padFound, goto, hpad])
  case taWait =>
    rw [phaseStep_taWait hp, wait_eq]
    exact go .taClr rfl ⟨rfl, nofun⟩ (hc ▸ rfl) (by simp [padFound, goto, hpad])
  case taClr =>
    rw [phaseStep_taClr hp]
    split_ifs with hr
    · have hd : s.dir = .float := by cases hd : s.dir <;> simp_all
      exact go .taMo rfl ⟨rfl, nofun⟩ rfl (by simp [padFound, goto, hd, hr, hpad])
    · have hr' : requestedDir s.op = .float := by cases hq : requestedDir s.op <;> simp_all
      exact first (v := { pinWriteClk false s with dir := .float }) rfl rfl hr'.symm hpad.2
  case taMo =>
    rw [phaseStep_taMo hp]
    exact first (v := { pinMode .output s with dir := .drive }) rfl hc.symm hpad.1.2.symm rfl

/-! ### The phases of the four operations -/

/-- After a counted tick: to the phase `again` of the next tick if there is one, else to the phase `last`. -/
theorem Owned.flight_next_tick {k : BitVec 2} {s v : State} {again last : Phase} (h : Owned k s)
    (hv : (v.op, v.ticks, v.dir, v.dioOe) = (s.op, s.ticks, s.dir, s.dioOe)) (hn : Counted v)
    (ha : ownerSlot again = some k ∧ ClockFits again v.clkO ∧ ticksFound (goto again v) = moreTicks v)
    (hl : ownerSlot last = some k ∧ ClockFits last v.clkO ∧ ticksFound (goto last v) = (v.bitidx == v.ticks)) :
    flightInv (goto (if moreTicks v then again else last) v) = true := by
  obtain ⟨hao, hac, hat⟩ := ha
  obtain ⟨hlo, hlc, hlt⟩ := hl
  split
  · next hm => exact h.flight_goto hv hao hac (hat.trans hm)
  · next hm => exact h.flight_goto hv hlo hlc (hlt.trans (beq_iff_eq.2 (bitidx_eq_ticks_of_counted hn hm)))

/-- The tick count of the phases after a counted tick. -/
theorem counted_iff (s : State) :
    (decide (1 ≤ s.bitidx.toNat) && decide (s.bitidx.toNat ≤ s.ticks.toNat)) = true ↔ Counted s := by
  simp [Counted]

/-- Every phase of `read`. -/
theorem flight_read {s : State} (hs : flightInv s = true) (h : ownerSlot s.phase = some 0) :
    flightInv (phaseStep s) = true := by
  obtain ⟨ho, hc, ht⟩ := (flightInv_iff_of_owner h).1 hs
  cases hp : s.phase <;> rw [hp] at h <;> cases h <;> simp only [hp, ticksFound] at hc ht
  case rdSmp =>
    rw [phaseStep_rdSmp hp, sampleToSmp_eq]
    exact ho.flight_goto rfl rfl hc ht
  case rdSet =>
    rw [phaseStep_rdSet hp, accumulate_eq, byWidth]
    split <;> exact ho.flight_goto rfl rfl (.inr rfl) ht
  case rdWait =>
    rw [phaseStep_rdWait hp, wait_eq]
    exact ho.flight_goto rfl rfl hc ht
  case rdClr =>
    rw [phaseStep_rdClr hp]
    dsimp only
    split
    · next hm => exact ho.flight_goto rfl rfl (.inr rfl) hm
    · exact ho.flight_complete rfl rfl

/-- Every phase of `readWithParity`. -/
theorem flight_readPar {s : State} (hs : flightInv s = true) (h : ownerSlot s.phase = some 1) :
    flightInv (phaseStep s) = true := by
  obtain ⟨ho, hc, ht⟩ := (flightInv_iff_of_owner h).1 hs
  have next {v : State} (hv : (v.op, v.ticks, v.dir, v.dioOe) = (s.op, s.ticks, s.dir, s.dioOe)) (hn : Counted v)
      (hclk : v.clkO = true) : flightInv (goto (afterReadParTick v) v) = true :=
    ho.flight_next_tick hv hn ⟨rfl, .inl rfl, rfl⟩ ⟨rfl, .inr (congrArg some hclk.symm), rfl⟩
  cases hp : s.phase <;> rw [hp] at h <;> cases h <;> simp only [hp, ticksFound] at hc ht
  case rpClr =>
    rw [phaseStep_rpClr hp]
    exact ho.flight_goto rfl rfl (.inr rfl) ht
  case rpSmp =>
    rw [phaseStep_rpSmp hp, sampleToSmp_eq]
    exact ho.flight_goto rfl rfl hc ht
  case rpSet =>
    obtain ⟨word, hacc⟩ : ∃ word, accumulate (pinWriteClk true s) = { pinWriteClk true s with shift := word } :=
      ⟨_, accumulate_eq _⟩
    rw [phaseStep_rpSet hp, hacc]
    have hn := counted_of_moreTicks (u := nextBit (pinWriteClk true s)) ht rfl rfl
    dsimp only [byWidth]
    split
    · exact next rfl hn rfl
    · exact ho.flight_goto rfl rfl (.inr rfl) ((counted_iff _).2 hn)
  case rpWait =>
    rw [phaseStep_rpWait hp, wait_eq]
    exact next (v := { s with trace := _ }) rfl ((counted_iff s).1 ht) (Option.some.inj (hc.resolve_left nofun)).symm
  case rpPclr =>
    rw [phaseStep_rpPclr hp]
    exact ho.flight_goto rfl rfl (.inr rfl) ht
  case rpPsmp =>
    rw [phaseStep_rpPsmp hp, sampleToPar_eq]
    exact ho.flight_goto rfl rfl hc ht
  case rpPset =>
    rw [phaseStep_rpPset hp, byWidth]
    split <;> exact ho.flight_goto rfl rfl (.inr rfl) ht
  case rpPwait =>
    rw [phaseStep_rpPwait hp, wait_eq]
    exact ho.flight_goto rfl rfl hc ht
  case rpPend =>
    rw [phaseStep_rpPend hp]
    exact ho.flight_complete rfl rfl

/-- Every phase of `write`. -/
theorem flight_write {s : State} (hs : flightInv s = true) (h : ownerSlot s.phase = some 2) :
    flightInv (phaseStep s) = true := by
  obtain ⟨ho, hc, ht⟩ := (flightInv_iff_of_owner h).1 hs
  have next {v : State} (hv : (v.op, v.ticks, v.dir, v.dioOe) = (s.op, s.ticks, s.dir, s.dioOe)) (hn : Counted v)
      (hclk : v.clkO = true) : flightInv (goto (afterWriteTick v) v) = true :=
    ho.flight_next_tick hv hn ⟨rfl, .inl rfl, rfl⟩ ⟨rfl, .inr (congrArg some hclk.symm), rfl⟩
  cases hp : s.phase <;> rw [hp] at h <;> cases h <;> simp only [hp, ticksFound] at hc ht
  case wrPre =>
    rw [phaseStep_wrPre hp]
    exact ho.flight_goto rfl rfl (.inl rfl) (moreTicks_of_zero (eq_of_beq ht) ho.ticks)
  case wrClr =>
    rw [phaseStep_wrClr hp]
    exact ho.flight_goto rfl rfl (.inr rfl) ht
  case wrDrv =>
    rw [phaseStep_wrDrv hp]
    exact ho.flight_goto rfl rfl hc ((counted_iff _).2 (counted_of_moreTicks ht rfl rfl))
  case wrSet =>
    rw [phaseStep_wrSet hp, byWidth]
    split
    · exact next (v := pinWriteClk true s) rfl ((counted_iff s).1 ht) rfl
    · exact ho.flight_goto rfl rfl (.inr rfl) ht
  case wrWait =>
    rw [phaseStep_wrWait hp, wait_eq]
    exact next (v := { s with trace := _ }) rfl ((counted_iff s).1 ht) (Option.some.inj (hc.resolve_left nofun)).symm
  case wrEnd =>
    rw [phaseStep_wrEnd hp]
    exact ho.flight_complete rfl rfl

/-- Every phase of `writeWithParity`. -/
theorem flight_writePar {s : State} (hs : flightInv s = true) (h : ownerSlot s.phase = some 3) :
    flightInv (phaseStep s) = true := by
  obtain ⟨ho, hc, ht⟩ := (flightInv_iff_of_owner h).1 hs
  cases hp : s.phase <;> rw [hp] at h <;> cases h <;> simp only [hp, ticksFound] at hc ht
  case wpPre =>
    rw [phaseStep_wpPre hp]
    exact ho.flight_goto rfl rfl hc (moreTicks_of_zero (eq_of_beq ht) ho.ticks)
  case wpSet =>
    rw [phaseStep_wpSet hp]
    exact ho.flight_goto rfl rfl (.inr rfl) ((counted_iff _).2 (counted_of_moreTicks ht rfl rfl))
  case wpDrv =>
    rw [phaseStep_wpDrv hp, byWidth]
    split <;> exact ho.flight_goto rfl rfl hc ht
  case wpWait =>
    rw [phaseStep_wpWait hp, wait_eq]
    exact ho.flight_goto rfl rfl hc ht
  case wpClr =>
    rw [phaseStep_wpClr hp]
    exact ho.flight_next_tick (v := pinWriteClk false s) rfl ((counted_iff s).1 ht) ⟨rfl, .inr rfl, rfl⟩
      ⟨rfl, .inr rfl, rfl⟩
  case wpPdrv =>
    rw [phaseStep_wpPdrv hp]
    exact ho.flight_goto rfl rfl hc ht
  case wpPclr =>
    rw [phaseStep_wpPclr hp, byWidth]
    split <;> exact ho.flight_goto rfl rfl (.inr rfl) ht
  case wpPwait1 =>
    rw [phaseStep_wpPwait1 hp, wait_eq]
    exact ho.flight_goto rfl rfl hc ht
  case wpPset =>
    rw [phaseStep_wpPset hp, byWidth]
    split <;> exact ho.flight_goto rfl rfl (.inr rfl) ht
  case wpPset2 =>
    rw [phaseStep_wpPset2 hp]
    exact ho.flight_goto rfl rfl (.inr rfl) ht
  case wpPwait2 =>
    rw [phaseStep_wpPwait2 hp, wait_eq]
    exact ho.flight_goto rfl rfl hc ht
  case wpPend =>
    rw [phaseStep_wpPend hp]
    exact ho.flight_complete rfl rfl

/-- A phase step keeps the invariant. -/
theorem flight_phaseStep {s : State} (hs : flightInv s = true) : flightInv (phaseStep s) = true := by
  by_cases hi : s.phase = .idle
  · rwa [phaseStep_idle hi]
  · cases h : ownerSlot s.phase with
    | none => exact flight_turnaround hs h hi
    | some k =>
      have four : ∀ k : BitVec 2, k = 0 ∨ k = 1 ∨ k = 2 ∨ k = 3 := by decide
      rcases four k with rfl | rfl | rfl | rfl
      · exact flight_read hs h
      · exact flight_readPar hs h
      · exact flight_write hs h
      · exact flight_writePar hs h

/-! ### Acceptance -/

/-- A whole command keeps the invariant of an idle block. -/
theorem flight_afterCommand {i : Instr} {s : State} (hco : coherent s = true) (hlow : idleLow s = true)
    (hi : i = .init → s.dioOe = .input) : flightInv (afterCommand i s) = true := by
  rw [flightInv_of_idle (afterCommand_phase i s), coherent_afterCommand hco hi, idleLow_afterCommand i hlow]
  rfl

/-- A transport command accepted stands before its turnaround with the loop not begun. -/
theorem flight_accepted {k : BitVec 2} {t : BitVec 6} {run : State → State} {s u : State}
    (h : admitTransport k t run s = .next u) (hco : coherent s = true) (hlow : idleLow s = true)
    (hrun : ∃ v, run s = goto .taCheck v ∧ (v.ticks, v.bitidx, v.clkO, v.dir, v.dioOe) = (t, 0#6, s.clkO, s.dir, s.dioOe) ∧
      v.op.getLsbD 2 = false) : flightInv u = true := by
  obtain ⟨v, hv, hfields, hop⟩ := hrun
  obtain ⟨-, ht, rfl⟩ := admitTransport_eq_next.1 h
  simp only [Prod.mk.injEq] at hfields
  obtain ⟨hvt, hvb, hvc, hvd, hvo⟩ := hfields
  rw [hv]
  refine (flightInv_iff_of_turnaround (s := goto .taCheck v) rfl nofun).2 ⟨?_, ?_, hvb, hvt ▸ ht, hop⟩
  · exact congrArg some (hvc.trans (Bool.eq_false_of_not_eq_true' hlow)).symm
  · exact beq_iff_eq.2 (hvo.trans ((eq_of_beq hco).trans (congrArg Direction.mode hvd.symm)))

/-- The accept step keeps the invariant. -/
theorem flight_acceptStep {i : Instr} {s u : State} (h : acceptStep i s = .next u) (hco : coherent s = true)
    (hlow : idleLow s = true) (hi : i = .init → s.dioOe = .input) : flightInv u = true := by
  cases i <;> rw [acceptStep] at h
  case init =>
    obtain ⟨-, rfl⟩ := exec_eq_next.1 (show exec .init s = .next u from h)
    exact flight_afterCommand hco hlow hi
  case configureTiming p =>
    obtain ⟨-, rfl⟩ := exec_eq_next.1 (show exec (.configureTiming p) s = .next u from h)
    exact flight_afterCommand hco hlow hi
  all_goals exact flight_accepted h hco hlow ⟨_, rfl, rfl, by simp⟩

/-- What an idle state of the invariant gives a presented command: coherence, idle-low, and R232's duty. -/
theorem flight_presented {s : State} {c : Command} {rest : List Command} {i : Instr} (hs : flightInv s = true)
    (hr : initOnlyReleased s = true) (hp : s.phase = .idle) (hh : s.host = c :: rest) (hd : decode c = .ok i) :
    coherent s = true ∧ idleLow s = true ∧ (i = .init → s.dioOe = .input) := by
  rw [flightInv_of_idle hp, Bool.and_eq_true] at hs
  refine ⟨hs.1, hs.2, fun hi => ?_⟩
  simpa [initOnlyReleased, hp, hh, hd, hi] using hr

/-- Settles O42: the accept step and each phase keep the invariant. -/
theorem eventStepKeepsFlightInvariant : Obligations.EventStepKeepsFlightInvariant := by
  intro s u hs hr h
  by_cases hp : s.phase = .idle
  · cases hh : s.host with
    | nil =>
      simp only [eventStep, hp, hh, Host.Outcome.next.injEq] at h
      exact h ▸ hs
    | cons c rest =>
      simp only [eventStep, hp, hh] at h
      split at h
      · next i hd =>
        obtain ⟨hco, hlow, hi⟩ := flight_presented hs hr hp hh hd
        exact flight_acceptStep h hco hlow hi
      · cases h
  · simp only [eventStep] at h
    split at h
    · next hidle _ => exact absurd hidle hp
    · next hidle _ => exact absurd hidle hp
    · cases h
      exact flight_phaseStep hs

/-- Settles O43: a whole command keeps coherence and idle-low, and each phase the invariant. -/
theorem stepKeepsFlightInvariant : Obligations.StepKeepsFlightInvariant := by
  intro s u hs hr h
  rcases step_eq_next_cases h with ⟨-, -, rfl⟩ | ⟨hp, c, rest, i, hh, hd, hx⟩ | ⟨-, rfl⟩
  · exact hs
  · obtain ⟨hco, hlow, hi⟩ := flight_presented hs hr hp hh hd
    obtain ⟨-, rfl⟩ := exec_eq_next.1 hx
    exact flight_afterCommand (s := { s with host := rest }) hco hlow hi
  · exact flight_phaseStep hs

end Sys2Proof.Machine
end

section
/-! Delay counts and delay units reach nothing but the waits of the trace (spec/43_timing.md R150, R151, R157): two
states that differ there alone go on alike, through every primitive, phase and command. -/

namespace Sys2Proof.Machine

open Sys2Proof.Safety

/-! ### States alike but for delays -/

/-- What is compared of a trace: all of it, or the pin trace. -/
def seen (strict : Bool) (es : List Event) : List Event := if strict then es else pinTrace es

theorem seen_append (strict : Bool) (es fs : List Event) : seen strict (es ++ fs) = seen strict es ++ seen strict fs := by
  cases strict <;> simp [seen, pinTrace]

/-- The same state but for the timing profile, the link's delay unit and the trace. Where `strict`, the profile and the
trace are the same too, so that the unit alone differs; else the pin traces are the same. -/
structure Alike (strict : Bool) (a b : State) : Prop where
  rest : b = { a with timing := b.timing, trace := b.trace, link := b.link }
  width : a.link.fixedClkWidth = b.link.fixedClkWidth
  events : seen strict a.trace = seen strict b.trace
  timing : strict = true → a.timing = b.timing

namespace Alike

variable {strict : Bool} {a b : State}

/-- A write of registers that neither reads nor writes the profile, the trace or the link. -/
theorem registers (h : Alike strict a b) {f : State → State}
    (hf : ∀ s p es l, f { s with timing := p, trace := es, link := l } = { f s with timing := p, trace := es, link := l }) :
    Alike strict (f a) (f b) := by
  have ha : f a = { f a with timing := a.timing, trace := a.trace, link := a.link } := hf a a.timing a.trace a.link
  have hb : f b = { f a with timing := b.timing, trace := b.trace, link := b.link } :=
    (congrArg f h.rest).trans (hf a b.timing b.trace b.link)
  rw [ha, hb]
  exact ⟨rfl, h.width, h.events, h.timing⟩

/-- The same event on both sides. -/
theorem emit (h : Alike strict a b) (e : Event) : Alike strict (emit e a) (emit e b) where
  rest := by
    conv => lhs; rw [h.rest]
    rfl
  width := h.width
  events := by simp only [emit_trace, seen_append, h.events]
  timing := h.timing

theorem answer (h : Alike strict a b) : answer a = answer b := by
  rw [h.rest]
  rfl

theorem phase (h : Alike strict a b) : a.phase = b.phase := by rw [h.rest]
theorem op (h : Alike strict a b) : a.op = b.op := by rw [h.rest]
theorem dir (h : Alike strict a b) : a.dir = b.dir := by rw [h.rest]
theorem par (h : Alike strict a b) : a.par = b.par := by rw [h.rest]
theorem shift (h : Alike strict a b) : a.shift = b.shift := by rw [h.rest]
theorem host (h : Alike strict a b) : a.host = b.host := by rw [h.rest]
theorem dispatch (h : Alike strict a b) : a.dispatch = b.dispatch := by rw [h.rest]
theorem moreTicks (h : Alike strict a b) : moreTicks a = moreTicks b := by
  rw [h.rest]
  rfl

/-! ### The primitives -/

theorem pinWriteClk (h : Alike strict a b) (l : Level) : Alike strict (pinWriteClk l a) (pinWriteClk l b) :=
  (h.registers (f := fun s => { s with clkO := l }) fun _ _ _ _ => rfl).emit _

theorem pinWriteDio (h : Alike strict a b) (v : Level) : Alike strict (pinWriteDio v a) (pinWriteDio v b) :=
  (h.registers (f := fun s => { s with dioO := v }) fun _ _ _ _ => rfl).emit _

theorem pinMode (h : Alike strict a b) (m : PinMode) : Alike strict (pinMode m a) (pinMode m b) :=
  (h.registers (f := fun s => { s with dioOe := m }) fun _ _ _ _ => rfl).emit _

theorem pinRead (h : Alike strict a b) : Alike strict (pinRead a) (pinRead b) := by
  have ht : Alike strict (takeAnswer a) (takeAnswer b) := h.registers fun s p es l => by simp only [takeAnswer_eq]
  rw [Machine.pinRead, Machine.pinRead, h.answer]
  exact ht.emit _

theorem sampleToSmp (h : Alike strict a b) : Alike strict (sampleToSmp a) (sampleToSmp b) := by
  rw [Machine.sampleToSmp, Machine.sampleToSmp, h.answer]
  exact h.pinRead.registers (f := fun s => { s with smp := Machine.answer b }) fun _ _ _ _ => rfl

theorem sampleToPar (h : Alike strict a b) : Alike strict (sampleToPar a) (sampleToPar b) := by
  rw [Machine.sampleToPar, Machine.sampleToPar, h.answer]
  exact h.pinRead.registers (f := fun s => { s with par := Machine.answer b }) fun _ _ _ _ => rfl

/-- A wait of the same register's count on both sides: the one place where the profile is read. -/
theorem wait (h : Alike strict a b) (count : Profile → DelayCount) :
    Alike strict (wait (count a.timing) a) (wait (count b.timing) b) := by
  unfold Machine.wait
  rw [h.width]
  split
  · exact h
  · cases strict with
    | true =>
      rw [h.timing rfl]
      exact h.emit _
    | false =>
      refine ⟨?_, h.width, ?_, nofun⟩
      · conv => lhs; rw [h.rest]
        rfl
      · rw [emit_trace, emit_trace, seen_append, seen_append, h.events]
        rfl

theorem raiseClkTwiceIfFixed (h : Alike strict a b) :
    Alike strict (raiseClkTwiceIfFixed a) (raiseClkTwiceIfFixed b) := by
  unfold Machine.raiseClkTwiceIfFixed
  rw [h.width]
  split
  · exact (h.pinWriteClk true).pinWriteClk true
  · exact h.pinWriteClk true

theorem accumulate (h : Alike strict a b) : Alike strict (accumulate a) (accumulate b) :=
  h.registers fun s p es l => by simp only [accumulate_eq]

theorem shiftOut (h : Alike strict a b) : Alike strict (shiftOut a) (shiftOut b) := h.registers fun _ _ _ _ => rfl

theorem nextBit (h : Alike strict a b) : Alike strict (nextBit a) (nextBit b) := h.registers fun _ _ _ _ => rfl

theorem startLoop (h : Alike strict a b) (w : Word) : Alike strict (startLoop w a) (startLoop w b) :=
  h.registers fun _ _ _ _ => rfl

theorem complete (h : Alike strict a b) : Alike strict (complete a) (complete b) := h.registers fun _ _ _ _ => rfl

theorem driveBit (h : Alike strict a b) : Alike strict (driveBit a) (driveBit b) := by
  rw [Machine.driveBit, Machine.driveBit, h.shift]
  exact h.pinWriteDio _

theorem setDir (h : Alike strict a b) (d : Direction) : Alike strict { a with dir := d } { b with dir := d } :=
  h.registers (f := fun s => { s with dir := d }) fun _ _ _ _ => rfl

theorem setPar (h : Alike strict a b) (p : Bool) : Alike strict { a with par := p } { b with par := p } :=
  h.registers (f := fun s => { s with par := p }) fun _ _ _ _ => rfl

/-- The result register of `read`. -/
theorem finishRead (h : Alike strict a b) :
    Alike strict { a with rdata := a.shift } { b with rdata := b.shift } :=
  h.registers (f := fun s => { s with rdata := s.shift }) fun _ _ _ _ => rfl

/-- The result registers of `readWithParity`. -/
theorem finishReadPar (h : Alike strict a b) :
    Alike strict { a with rdata := a.shift, perr := parityMismatch a.shift a.par }
      { b with rdata := b.shift, perr := parityMismatch b.shift b.par } :=
  h.registers (f := fun s => { s with rdata := s.shift, perr := parityMismatch s.shift s.par }) fun _ _ _ _ => rfl

theorem times (h : Alike strict a b) {f : State → State} (hf : ∀ {a b}, Alike strict a b → Alike strict (f a) (f b))
    (n : Nat) : Alike strict (times f n a) (times f n b) := by
  induction n generalizing a b with
  | zero => exact h
  | succ n ih => exact ih (hf h)

/-! ### The phases -/

theorem goto (h : Alike strict a b) {p q : Phase} (hp : p = q) : Alike strict (goto p a) (goto q b) :=
  hp ▸ h.registers (f := Machine.goto p) fun _ _ _ _ => rfl

theorem byWidth (h : Alike strict a b) {p q p' q' : Phase} (hp : p = p') (hq : q = q') :
    byWidth a p q = byWidth b p' q' := by
  rw [Machine.byWidth, Machine.byWidth, h.width, hp, hq]

theorem afterReadParTick (h : Alike strict a b) : afterReadParTick a = afterReadParTick b := by
  rw [Machine.afterReadParTick, Machine.afterReadParTick, h.moreTicks]

theorem afterWriteTick (h : Alike strict a b) : afterWriteTick a = afterWriteTick b := by
  rw [Machine.afterWriteTick, Machine.afterWriteTick, h.moreTicks]

/-- Every phase. -/
theorem phaseStep (h : Alike strict a b) : Alike strict (phaseStep a) (phaseStep b) := by
  cases ha : a.phase <;> have hb := h.phase.symm.trans ha
  case idle => rwa [phaseStep_idle ha, phaseStep_idle hb]
  case taCheck =>
    rw [phaseStep_taCheck ha, phaseStep_taCheck hb, h.op, h.dir]
    split_ifs
    · exact h.goto rfl
    · exact h.goto rfl
    · exact h.goto rfl
  case taMi =>
    rw [phaseStep_taMi ha, phaseStep_taMi hb]
    exact (h.pinMode .input).goto rfl
  case taSet =>
    rw [phaseStep_taSet ha, phaseStep_taSet hb]
    exact (h.pinWriteClk true).goto (h.byWidth rfl rfl)
  case taSet2 =>
    rw [phaseStep_taSet2 ha, phaseStep_taSet2 hb]
    exact (h.pinWriteClk true).goto rfl
  case taWait =>
    rw [phaseStep_taWait ha, phaseStep_taWait hb]
    exact (h.wait Profile.turnaround).goto rfl
  case taClr =>
    rw [phaseStep_taClr ha, phaseStep_taClr hb, h.op]
    split_ifs
    · exact (h.pinWriteClk false).goto rfl
    · exact ((h.pinWriteClk false).setDir .float).goto rfl
  case taMo =>
    rw [phaseStep_taMo ha, phaseStep_taMo hb, h.op]
    exact ((h.pinMode .output).setDir .drive).goto rfl
  case rdSmp =>
    rw [phaseStep_rdSmp ha, phaseStep_rdSmp hb]
    exact h.sampleToSmp.goto rfl
  case rdSet =>
    rw [phaseStep_rdSet ha, phaseStep_rdSet hb]
    exact (h.pinWriteClk true).accumulate.goto (h.byWidth rfl rfl)
  case rdWait =>
    rw [phaseStep_rdWait ha, phaseStep_rdWait hb]
    exact (h.wait Profile.seqIn).goto rfl
  case rdClr =>
    have hu := (h.pinWriteClk false).nextBit
    rw [phaseStep_rdClr ha, phaseStep_rdClr hb]
    dsimp only
    rw [hu.moreTicks]
    split
    · exact hu.goto rfl
    · exact hu.finishRead.complete
  case rpClr =>
    rw [phaseStep_rpClr ha, phaseStep_rpClr hb]
    exact (h.pinWriteClk false).goto rfl
  case rpSmp =>
    rw [phaseStep_rpSmp ha, phaseStep_rpSmp hb]
    exact h.sampleToSmp.goto rfl
  case rpSet =>
    have hu := (h.pinWriteClk true).accumulate.nextBit
    rw [phaseStep_rpSet ha, phaseStep_rpSet hb]
    exact hu.goto (hu.byWidth hu.afterReadParTick rfl)
  case rpWait =>
    rw [phaseStep_rpWait ha, phaseStep_rpWait hb]
    exact (h.wait Profile.seqInParLoop).goto h.afterReadParTick
  case rpPclr =>
    rw [phaseStep_rpPclr ha, phaseStep_rpPclr hb]
    exact (h.pinWriteClk false).goto rfl
  case rpPsmp =>
    rw [phaseStep_rpPsmp ha, phaseStep_rpPsmp hb]
    exact h.sampleToPar.goto rfl
  case rpPset =>
    rw [phaseStep_rpPset ha, phaseStep_rpPset hb]
    exact (h.pinWriteClk true).goto (h.byWidth rfl rfl)
  case rpPwait =>
    rw [phaseStep_rpPwait ha, phaseStep_rpPwait hb]
    exact (h.wait Profile.seqInParEnd).goto rfl
  case rpPend =>
    rw [phaseStep_rpPend ha, phaseStep_rpPend hb]
    exact (h.pinWriteClk false).finishReadPar.complete
  case wrPre =>
    rw [phaseStep_wrPre ha, phaseStep_wrPre hb]
    exact h.driveBit.goto rfl
  case wrClr =>
    rw [phaseStep_wrClr ha, phaseStep_wrClr hb]
    exact (h.pinWriteClk false).goto rfl
  case wrDrv =>
    rw [phaseStep_wrDrv ha, phaseStep_wrDrv hb]
    exact h.driveBit.shiftOut.nextBit.goto rfl
  case wrSet =>
    rw [phaseStep_wrSet ha, phaseStep_wrSet hb]
    exact (h.pinWriteClk true).goto (h.byWidth h.afterWriteTick rfl)
  case wrWait =>
    rw [phaseStep_wrWait ha, phaseStep_wrWait hb]
    exact (h.wait Profile.seqOut).goto h.afterWriteTick
  case wrEnd =>
    rw [phaseStep_wrEnd ha, phaseStep_wrEnd hb]
    exact (h.pinWriteClk false).complete
  case wpPre =>
    rw [phaseStep_wpPre ha, phaseStep_wpPre hb]
    exact h.driveBit.goto rfl
  case wpSet =>
    rw [phaseStep_wpSet ha, phaseStep_wpSet hb]
    exact (h.pinWriteClk true).shiftOut.nextBit.goto rfl
  case wpDrv =>
    rw [phaseStep_wpDrv ha, phaseStep_wpDrv hb]
    exact h.driveBit.goto (h.byWidth rfl rfl)
  case wpWait =>
    rw [phaseStep_wpWait ha, phaseStep_wpWait hb]
    exact (h.wait Profile.seqOutParLoop).goto rfl
  case wpClr =>
    rw [phaseStep_wpClr ha, phaseStep_wpClr hb, h.moreTicks]
    exact (h.pinWriteClk false).goto rfl
  case wpPdrv =>
    rw [phaseStep_wpPdrv ha, phaseStep_wpPdrv hb, h.par]
    exact (h.pinWriteDio _).goto rfl
  case wpPclr =>
    rw [phaseStep_wpPclr ha, phaseStep_wpPclr hb]
    exact (h.pinWriteClk false).goto (h.byWidth rfl rfl)
  case wpPwait1 =>
    rw [phaseStep_wpPwait1 ha, phaseStep_wpPwait1 hb]
    exact (h.wait Profile.seqOutParLoop).goto rfl
  case wpPset =>
    rw [phaseStep_wpPset ha, phaseStep_wpPset hb]
    exact (h.pinWriteClk true).goto (h.byWidth rfl rfl)
  case wpPset2 =>
    rw [phaseStep_wpPset2 ha, phaseStep_wpPset2 hb]
    exact (h.pinWriteClk true).goto rfl
  case wpPwait2 =>
    rw [phaseStep_wpPwait2 ha, phaseStep_wpPwait2 hb]
    exact (h.wait Profile.seqOutParEnd).goto rfl
  case wpPend =>
    rw [phaseStep_wpPend ha, phaseStep_wpPend hb]
    exact (h.pinWriteClk false).complete

/-! ### The commands -/

theorem turnaroundPulse (h : Alike strict a b) : Alike strict (turnaroundPulse a) (turnaroundPulse b) := by
  have hw : a.timing.turnaround = (Machine.raiseClkTwiceIfFixed a).timing.turnaround ∧
      b.timing.turnaround = (Machine.raiseClkTwiceIfFixed b).timing.turnaround := by
    simp [raiseClkTwiceIfFixed_eq]
  rw [Machine.turnaroundPulse, Machine.turnaroundPulse, hw.1, hw.2]
  exact (h.raiseClkTwiceIfFixed.wait Profile.turnaround).pinWriteClk false

theorem turnaround (h : Alike strict a b) (d : Direction) : Alike strict (turnaround d a) (turnaround d b) := by
  unfold Machine.turnaround
  rw [h.dir]
  split
  · exact h
  · cases d with
    | float => exact (h.pinMode .input).turnaroundPulse.setDir .float
    | drive => exact (h.turnaroundPulse.pinMode .output).setDir .drive

theorem readTick (h : Alike strict a b) : Alike strict (readTick a) (readTick b) :=
  (((h.sampleToSmp.pinWriteClk true).accumulate.wait Profile.seqIn).pinWriteClk false).nextBit

theorem readParTick (h : Alike strict a b) : Alike strict (readParTick a) (readParTick b) :=
  ((((h.pinWriteClk false).sampleToSmp).pinWriteClk true).accumulate.nextBit).wait Profile.seqInParLoop

theorem readParEnd (h : Alike strict a b) : Alike strict (readParEnd a) (readParEnd b) :=
  ((((h.pinWriteClk false).sampleToPar).pinWriteClk true).wait Profile.seqInParEnd).pinWriteClk false

theorem writeTick (h : Alike strict a b) : Alike strict (writeTick a) (writeTick b) :=
  ((h.pinWriteClk false).driveBit.shiftOut.nextBit.pinWriteClk true).wait Profile.seqOut

theorem writeParTick (h : Alike strict a b) : Alike strict (writeParTick a) (writeParTick b) :=
  ((h.pinWriteClk true).shiftOut.nextBit.driveBit.wait Profile.seqOutParLoop).pinWriteClk false

theorem writeParEnd (h : Alike strict a b) : Alike strict (writeParEnd a) (writeParEnd b) := by
  unfold Machine.writeParEnd
  rw [h.par]
  exact (((((h.pinWriteDio b.par).pinWriteClk false).wait Profile.seqOutParLoop).raiseClkTwiceIfFixed).wait
    Profile.seqOutParEnd).pinWriteClk false

theorem load (h : Alike strict a b) (o : BitVec 3) (t : BitVec 6) :
    Alike strict (loadOperands o t a) (loadOperands o t b) := h.registers fun _ _ _ _ => rfl

theorem loadWord (h : Alike strict a b) (w : Word) : Alike strict (loadWord w a) (loadWord w b) :=
  h.registers fun _ _ _ _ => rfl

/-- The new profile is the same on both sides. -/
theorem setTiming (h : Alike strict a b) (p : Profile) : Alike strict { a with timing := p } { b with timing := p } where
  rest := by
    conv => lhs; rw [h.rest]
  width := h.width
  events := h.events
  timing _ := rfl

end Alike

/-- Both outcomes answer a next state, and the two states are related, or both refuse for the same reason. -/
inductive BothEnd (R : State → State → Prop) : (x y : Host.Outcome State Fault Refusal) → Prop
  | next {u v : State} : R u v → BothEnd R (.next u) (.next v)
  | refused (r : Refusal) : BothEnd R (.refused r) (.refused r)

namespace Alike

variable {strict : Bool} {a b : State}

theorem admitTransport (h : Alike strict a b) (k : BitVec 2) (t : BitVec 6) {run : State → State}
    (hrun : Alike strict (run a) (run b)) :
    BothEnd (Alike strict) (admitTransport k t run a) (admitTransport k t run b) := by
  unfold Machine.admitTransport
  rw [h.dispatch]
  split_ifs
  · exact .refused _
  · exact .next hrun
  · exact .refused _

/-- Every command. -/
theorem exec (h : Alike strict a b) (i : Instr) : BothEnd (Alike strict) (exec i a) (exec i b) := by
  cases i with
  | read t =>
    exact h.admitTransport 0 t
      ((((h.load 0b000#3 t).turnaround .float).startLoop 0#32).times readTick t.toNat).finishRead.complete
  | readWithParity t =>
    exact h.admitTransport 1 t
      ((((h.load 0b001#3 t).turnaround .float).startLoop 0#32).times readParTick t.toNat).readParEnd.finishReadPar.complete
  | write w t =>
    exact h.admitTransport 2 t
      (((((((h.load 0b010#3 t).loadWord w).turnaround .drive).startLoop w).driveBit).times writeTick t.toNat).pinWriteClk
        false).complete
  | writeWithParity w t =>
    exact h.admitTransport 3 t
      (((((((h.load 0b011#3 t).loadWord w).setPar (writeParity w t.toNat)).turnaround .drive).startLoop w).driveBit).times
        writeParTick t.toNat).writeParEnd.complete
  | init => exact .next (h.registers fun _ _ _ _ => rfl)
  | configureTiming p =>
    simp only [Machine.exec, execConfigureTiming, admitTiming, h.width]
    split
    · exact .refused _
    · exact .next ((h.load 0b101#3 0#6).setTiming p).complete

/-- Every step. -/
theorem step (h : Alike strict a b) : BothEnd (Alike strict) (step a) (step b) := by
  by_cases ha : a.phase = .idle
  · have hb := h.phase.symm.trans ha
    cases hh : a.host with
    | nil =>
      rw [step_of_no_command ha hh, step_of_no_command hb (h.host.symm.trans hh)]
      exact .next h
    | cons c rest =>
      cases hd : decode c with
      | ok i =>
        rw [step_of_decode_ok ha hh hd, step_of_decode_ok hb (h.host.symm.trans hh) hd]
        exact (h.registers (f := fun s => { s with host := rest }) fun _ _ _ _ => rfl).exec i
      | error r =>
        rw [step_of_decode_error ha hh hd, step_of_decode_error hb (h.host.symm.trans hh) hd]
        exact .refused _
  · rw [step_of_busy ha, step_of_busy fun hb => ha (h.phase.trans hb)]
    exact .next h.phaseStep

end Alike

/-- A step keeps the link. -/
theorem step_link {s u : State} (h : step s = .next u) : u.link = s.link := (onlyInitWritesTheTable.1 s u h).1

/-- Settles O39: the two states are alike up to the waits, and a step keeps each link. -/
theorem delayCountsChangeOnlyWaits : Obligations.DelayCountsChangeOnlyWaits := by
  intro a b ⟨hrest, htrace⟩
  have hlink : a.link = b.link := (congrArg State.link hrest :)
  have h : Alike false a b := ⟨by rw [← hlink]; exact hrest.symm, congrArg _ hlink, htrace, nofun⟩
  have hstep := h.step
  generalize hx : step a = x at hstep ⊢
  generalize hy : step b = y at hstep ⊢
  cases hstep with
  | refused r => rfl
  | next huv =>
    have hl := (step_link hx).trans (hlink.trans (step_link hy).symm)
    exact ⟨by rw [huv.rest, ← hl], huv.events⟩

/-- Two states alike in all but the unit are one state under two units. -/
theorem Alike.eq_withDelayUnit {n : Nat} {s u v : State} (h : Alike true u v) (hu : u.link = s.link)
    (hv : v.link = (withDelayUnit n s).link) : v = withDelayUnit n u := by
  rw [h.rest, ← h.timing rfl, ← (show u.trace = v.trace from h.events), hv, withDelayUnit, withDelayUnit, hu]

/-- Settles O38: the two states are alike in all but the unit, and a step keeps each link. -/
theorem delayUnitChangesNothing : Obligations.DelayUnitChangesNothing := by
  intro n s
  have h : Alike true s (withDelayUnit n s) := ⟨rfl, rfl, rfl, fun _ => rfl⟩
  have hstep := h.step
  generalize hx : step s = x at hstep ⊢
  generalize hy : step (withDelayUnit n s) = y at hstep ⊢
  cases hstep with
  | refused r =>
    refine ⟨fun u hu => ?_, fun q hq => hq⟩
    cases hu
  | next huv =>
    refine ⟨fun u hu => ?_, fun q hq => ?_⟩
    · cases hu
      rw [huv.eq_withDelayUnit (step_link hx) (step_link hy)]
    · cases hq

end Sys2Proof.Machine
end

section
/-! What the events of a command are: how many, which primitives, which waits, and which operand bits they depend on
(spec/45_microsequencer.md R188, 20_memory.md R53, 43_timing.md R153, 42_seq_out.md R131, R136). -/

namespace Sys2Proof.Machine

open Sys2Proof.Safety

/-! ### How many events -/

/-- How many events a wait is. -/
def waitEvents (l : Config.Link) : Nat := if l.fixedClkWidth then 0 else 1

@[simp] theorem waitShape_length (l : Config.Link) (n : DelayCount) : (waitShape l n).length = waitEvents l := by
  unfold waitShape waitEvents
  split <;> rfl

/-- On a fixed clock width link the second raise stands in for the wait. -/
theorem setShape_length (l : Config.Link) : (setShape l).length + waitEvents l = 2 := by
  unfold setShape waitEvents
  split <;> rfl

/-- Towards `Float` the pad is released before the pulse. -/
theorem turnaroundShape_float {s : State} (h : s.dir = .drive) :
    turnaroundShape .float s = .mode .input :: pulseShape s := by
  simp [turnaroundShape, h]

/-- Towards `Drive` the pad is taken up after the pulse. -/
theorem turnaroundShape_drive {s : State} (h : s.dir = .float) :
    turnaroundShape .drive s = pulseShape s ++ [.mode .output] := by
  simp [turnaroundShape, h]

/-- A request is for the recorded direction, or for `Float`, or for `Drive`. -/
theorem direction_cases (d : Direction) (s : State) :
    d = s.dir ∨ (d = .float ∧ s.dir = .drive) ∨ (d = .drive ∧ s.dir = .float) := by
  cases d <;> cases s.dir <;> simp

/-- A turnaround that changes the direction has four events on either variant. -/
theorem turnaroundShape_length (d : Direction) (s : State) :
    (turnaroundShape d s).length = 4 * if d = s.dir then 0 else 1 := by
  have hset := setShape_length s.link
  rcases direction_cases d s with h | ⟨rfl, h⟩ | ⟨rfl, h⟩
  · rw [turnaroundShape_same h, if_pos h]
    rfl
  · simp [turnaroundShape_float h, pulseShape, h]
    omega
  · simp [turnaroundShape_drive h, pulseShape, h]
    omega

/-- A loop whose ticks all have `n` events. -/
theorem length_flatMap_of_length {α : Type} {f : α → List Event} {n : Nat} (h : ∀ x, (f x).length = n) (xs : List α) :
    (xs.flatMap f).length = xs.length * n := by
  simp [List.length_flatMap, h]

theorem readShape_length (s : State) (bs : List Level) :
    (readShape s bs).length = bs.length * (3 + waitEvents s.link) :=
  length_flatMap_of_length (fun _ => by simp [readTickShape]; omega) bs

theorem readParShape_length (s : State) (bs : List Level) (p : Level) :
    (readParShape s bs p).length = bs.length * (3 + waitEvents s.link) + (4 + waitEvents s.link) := by
  have hloop := length_flatMap_of_length (f := readParTickShape s) (n := 3 + waitEvents s.link)
    (fun _ => by simp [readParTickShape]; omega) bs
  simp [readParShape, readParEndShape, hloop]
  omega

theorem writeShape_length (s : State) (w : Word) (t : Nat) :
    (writeShape s w t).length = t * (3 + waitEvents s.link) + 2 := by
  have hloop := length_flatMap_of_length (f := writeTickShape s w) (n := 3 + waitEvents s.link)
    (fun _ => by simp [writeTickShape]; omega) (List.range t)
  simp [writeShape, hloop]

theorem writeParShape_length (s : State) (w : Word) (t : Nat) :
    (writeParShape s w t).length = t * (3 + waitEvents s.link) + (6 + waitEvents s.link) := by
  have hset := setShape_length s.link
  have hloop := length_flatMap_of_length (f := writeParTickShape s w) (n := 3 + waitEvents s.link)
    (fun _ => by simp [writeParTickShape]; omega) (List.range t)
  simp [writeParShape, writeParEndShape, hloop]
  omega

/-- The events of a command are as many as R188 says. -/
theorem commandEvents_length (i : Instr) (s : State) : (commandEvents i s).length = eventCount s i := by
  cases i <;> cases hw : s.link.fixedClkWidth <;>
    simp only [commandEvents, eventCount, turns, requests, hw, waitEvents, List.length_append, List.length_nil,
      turnaroundShape_length, readShape_length, readParShape_length, writeShape_length, writeParShape_length,
      samples_length] <;> simp <;> omega

/-- A command makes at most one turnaround. -/
theorem turns_le_one (s : State) (i : Instr) : turns s i ≤ 1 := by
  unfold turns
  split
  · split <;> decide
  · decide

/-- The longest command is `writeWithParity` of 32 ticks with a turnaround, on a variable clock width link. -/
theorem eventCount_le {i : Instr} {s : State} (h : admitted s i) : eventCount s i ≤ 139 := by
  have ht := turns_le_one s i
  cases i <;> cases hw : s.link.fixedClkWidth <;> simp only [eventCount, hw, admitted] at h ⊢ <;> omega

/-- Settles O32: the shapes have the stated numbers of events, and a count of ticks is at most 32. -/
theorem commandEventCounts : Obligations.CommandEventCounts := by
  intro i s u h
  rw [newEvents_of_exec h]
  exact ⟨commandEvents_length i s, eventCount_le (exec_eq_next.1 h).1⟩

/-! ### Which primitives -/

theorem mem_waitShape {e : Event} {l : Config.Link} {n : DelayCount} (h : e ∈ waitShape l n) : e = .wait n := by
  unfold waitShape at h
  split at h
  · cases h
  · exact List.mem_singleton.1 h

theorem mem_setShape {e : Event} {l : Config.Link} (h : e ∈ setShape l) : e = .clk true := by
  unfold setShape at h
  split at h <;> simpa using h

/-- No wait and no set phase drives the data line, samples it, or switches its mode. -/
@[simp] theorem dio_not_mem_waitShape (v : Level) (l : Config.Link) (n : DelayCount) : .dio v ∉ waitShape l n :=
  fun h => nomatch mem_waitShape h
@[simp] theorem sample_not_mem_waitShape (v : Level) (l : Config.Link) (n : DelayCount) : .sample v ∉ waitShape l n :=
  fun h => nomatch mem_waitShape h
@[simp] theorem mode_not_mem_waitShape (m : PinMode) (l : Config.Link) (n : DelayCount) : .mode m ∉ waitShape l n :=
  fun h => nomatch mem_waitShape h
@[simp] theorem dio_not_mem_setShape (v : Level) (l : Config.Link) : .dio v ∉ setShape l := fun h => nomatch mem_setShape h
@[simp] theorem sample_not_mem_setShape (v : Level) (l : Config.Link) : .sample v ∉ setShape l :=
  fun h => nomatch mem_setShape h
@[simp] theorem mode_not_mem_setShape (m : PinMode) (l : Config.Link) : .mode m ∉ setShape l :=
  fun h => nomatch mem_setShape h

/-- A turnaround does not drive the data line. -/
@[simp] theorem dio_not_mem_turnaroundShape (v : Level) (d : Direction) (s : State) : .dio v ∉ turnaroundShape d s := by
  rcases direction_cases d s with h | ⟨rfl, h⟩ | ⟨rfl, h⟩
  · simp [turnaroundShape_same h]
  · simp [turnaroundShape_float h, pulseShape]
  · simp [turnaroundShape_drive h, pulseShape]

/-- A turnaround does not sample the data line. -/
@[simp] theorem sample_not_mem_turnaroundShape (v : Level) (d : Direction) (s : State) :
    .sample v ∉ turnaroundShape d s := by
  rcases direction_cases d s with h | ⟨rfl, h⟩ | ⟨rfl, h⟩
  · simp [turnaroundShape_same h]
  · simp [turnaroundShape_float h, pulseShape]
  · simp [turnaroundShape_drive h, pulseShape]

/-- A turnaround that changes the direction switches the pad to the new direction's mode. -/
theorem mode_mem_turnaroundShape {m : PinMode} {d : Direction} {s : State} (hm : .mode m ∈ turnaroundShape d s) :
    d ≠ s.dir ∧ m = d.mode := by
  rcases direction_cases d s with h | ⟨rfl, h⟩ | ⟨rfl, h⟩
  · simp [turnaroundShape_same h] at hm
  · simpa [turnaroundShape_float h, pulseShape, h, Direction.mode] using hm
  · simpa [turnaroundShape_drive h, pulseShape, h, Direction.mode] using hm

/-- The readers do not drive the data line. -/
theorem requests_of_dio_mem {i : Instr} {s : State} {v : Level} (h : .dio v ∈ commandEvents i s) :
    requests i = some .drive := by
  cases i with
  | write w t => rfl
  | writeWithParity w t => rfl
  | read t => simp [commandEvents, readShape, readTickShape] at h
  | readWithParity t => simp [commandEvents, readParShape, readParTickShape, readParEndShape] at h
  | init => cases h
  | configureTiming p => cases h

/-- The writers do not sample the data line. -/
theorem requests_of_sample_mem {i : Instr} {s : State} {v : Level} (h : .sample v ∈ commandEvents i s) :
    requests i = some .float := by
  cases i with
  | read t => rfl
  | readWithParity t => rfl
  | write w t => simp [commandEvents, writeShape, writeTickShape] at h
  | writeWithParity w t => simp [commandEvents, writeParShape, writeParTickShape, writeParEndShape] at h
  | init => cases h
  | configureTiming p => cases h

/-- The pad's mode is switched inside the turnaround alone. -/
theorem mode_mem_commandEvents {i : Instr} {s : State} {m : PinMode} (h : .mode m ∈ commandEvents i s) :
    ∃ d, requests i = some d ∧ d ≠ s.dir ∧ m = d.mode := by
  cases i with
  | read t => exact ⟨_, rfl, mode_mem_turnaroundShape (by simpa [commandEvents, readShape, readTickShape] using h)⟩
  | readWithParity t =>
    exact ⟨_, rfl, mode_mem_turnaroundShape
      (by simpa [commandEvents, readParShape, readParTickShape, readParEndShape] using h)⟩
  | write w t => exact ⟨_, rfl, mode_mem_turnaroundShape (by simpa [commandEvents, writeShape, writeTickShape] using h)⟩
  | writeWithParity w t =>
    exact ⟨_, rfl, mode_mem_turnaroundShape
      (by simpa [commandEvents, writeParShape, writeParTickShape, writeParEndShape] using h)⟩
  | init => cases h
  | configureTiming p => cases h

/-- Settles O35: primitive by primitive, over the shapes of the command's events. -/
theorem primitivesByCommand : Obligations.PrimitivesByCommand := by
  intro i s u h
  rw [newEvents_of_exec h]
  refine ⟨fun _ => requests_of_dio_mem, fun _ => requests_of_sample_mem, fun _ => mode_mem_commandEvents, fun ht => ?_⟩
  cases i with
  | init => rfl
  | configureTiming p => rfl
  | _ => cases ht

/-! ### Which waits -/

/-- `n` waits of the same count, on a link that has waits. -/
def waits (l : Config.Link) (n : DelayCount) (k : Nat) : List Event :=
  if l.fixedClkWidth then [] else List.replicate k (.wait n)

/-- A wait shape is one wait. -/
@[simp] theorem filter_isWait_waitShape (l : Config.Link) (n : DelayCount) :
    (waitShape l n).filter Event.isWait = waits l n 1 := by
  unfold waitShape waits
  split <;> rfl

@[simp] theorem filter_isWait_setShape (l : Config.Link) : (setShape l).filter Event.isWait = [] := by
  unfold setShape
  split <;> rfl

theorem waits_add (l : Config.Link) (n : DelayCount) (j k : Nat) : waits l n (j + k) = waits l n j ++ waits l n k := by
  unfold waits
  split <;> simp

/-- A loop whose ticks each have the one wait. -/
theorem filter_isWait_flatMap {α : Type} {l : Config.Link} {n : DelayCount} {f : α → List Event}
    (h : ∀ x, (f x).filter Event.isWait = waits l n 1) (xs : List α) :
    (xs.flatMap f).filter Event.isWait = waits l n xs.length := by
  induction xs with
  | nil => simp [waits]
  | cons x xs ih => rw [List.flatMap_cons, List.filter_append, h, ih, ← waits_add, Nat.add_comm, List.length_cons]

/-- The wait of the turnaround. -/
theorem filter_isWait_turnaroundShape (d : Direction) (s : State) :
    (turnaroundShape d s).filter Event.isWait = waits s.link s.timing.turnaround (if d = s.dir then 0 else 1) := by
  rcases direction_cases d s with h | ⟨rfl, h⟩ | ⟨rfl, h⟩
  · rw [turnaroundShape_same h, if_pos h]
    simp [waits]
  · simp [turnaroundShape_float h, pulseShape, h, Event.isWait]
  · simp [turnaroundShape_drive h, pulseShape, h, Event.isWait]

/-- One wait for each tick. -/
theorem filter_isWait_readShape (s : State) (bs : List Level) :
    (readShape s bs).filter Event.isWait = waits s.link s.timing.seqIn bs.length :=
  filter_isWait_flatMap (fun _ => by simp [readTickShape, Event.isWait]) bs

/-- One wait for each tick, then the one of the parity cycle. -/
theorem filter_isWait_readParShape (s : State) (bs : List Level) (p : Level) :
    (readParShape s bs p).filter Event.isWait =
      waits s.link s.timing.seqInParLoop bs.length ++ waits s.link s.timing.seqInParEnd 1 := by
  have hloop := filter_isWait_flatMap (f := readParTickShape s) (l := s.link) (n := s.timing.seqInParLoop)
    (fun _ => by simp [readParTickShape, Event.isWait]) bs
  simp [readParShape, readParEndShape, hloop, Event.isWait]

/-- One wait for each tick. -/
theorem filter_isWait_writeShape (s : State) (w : Word) (t : Nat) :
    (writeShape s w t).filter Event.isWait = waits s.link s.timing.seqOut t := by
  have hloop := filter_isWait_flatMap (f := writeTickShape s w) (l := s.link) (n := s.timing.seqOut)
    (fun _ => by simp [writeTickShape, Event.isWait]) (List.range t)
  simpa [writeShape, Event.isWait] using hloop

/-- One wait for each tick and one more of the same count in the parity cycle, then that cycle's own. -/
theorem filter_isWait_writeParShape (s : State) (w : Word) (t : Nat) :
    (writeParShape s w t).filter Event.isWait =
      waits s.link s.timing.seqOutParLoop (t + 1) ++ waits s.link s.timing.seqOutParEnd 1 := by
  have hloop := filter_isWait_flatMap (f := writeParTickShape s w) (l := s.link) (n := s.timing.seqOutParLoop)
    (fun _ => by simp [writeParTickShape, Event.isWait]) (List.range t)
  rw [List.length_range] at hloop
  simp [writeParShape, writeParEndShape, hloop, Event.isWait, waits_add]

/-- Settles O36: the waits of the turnaround, of the ticks and of the end. -/
theorem waitsByCommand : Obligations.WaitsByCommand := by
  intro i s u h
  rw [newEvents_of_exec h]
  cases i with
  | read t =>
    simp only [commandEvents, List.filter_append, filter_isWait_turnaroundShape, filter_isWait_readShape, samples_length,
      waits, waitsOf, turns, requests]
    split <;> rfl
  | readWithParity t =>
    simp only [commandEvents, List.filter_append, filter_isWait_turnaroundShape, filter_isWait_readParShape,
      samples_length, waits, waitsOf, turns, requests]
    split <;> rfl
  | write w t =>
    simp only [commandEvents, List.filter_append, filter_isWait_turnaroundShape, filter_isWait_writeShape, waits, waitsOf,
      turns, requests]
    split <;> rfl
  | writeWithParity w t =>
    simp only [commandEvents, List.filter_append, filter_isWait_turnaroundShape, filter_isWait_writeParShape, waits,
      waitsOf, turns, requests]
    split <;> rfl
  | init => simp [commandEvents, waitsOf, turns, requests]
  | configureTiming p => simp [commandEvents, waitsOf, turns, requests]

/-! ### Which bits of the operand -/

/-- Words that agree below bit `t` are sent alike by `write`. -/
theorem writeShape_congr (s : State) {v w : Word} {t : Nat} (h1 : 1 ≤ t) (h : ∀ i, i < t → v.getLsbD i = w.getLsbD i) :
    writeShape s v t = writeShape s w t := by
  have hloop : (List.range t).flatMap (writeTickShape s v) = (List.range t).flatMap (writeTickShape s w) :=
    List.flatMap_congr fun i hi => by rw [writeTickShape, writeTickShape, h i (List.mem_range.1 hi)]
  rw [writeShape, writeShape, hloop, h 0 h1]

/-- Words that agree below bit `t` have the same transmitted parity. -/
theorem writeParity_congr {v w : Word} {t : Nat} (h32 : t ≤ 32) (h : ∀ i, i < t → v.getLsbD i = w.getLsbD i) :
    writeParity v t = writeParity w t := by
  have hcount : popcount (v &&& mask t) = popcount (w &&& mask t) := by
    rw [popcount_and_mask v h32, popcount_and_mask w h32]
    exact List.countP_congr fun i hi => by rw [h i (List.mem_range.1 hi)]
  rw [writeParity, writeParity, oddOnes, oddOnes, hcount]

/-- Words that agree up to bit `t` are sent alike by `writeWithParity`. -/
theorem writeParShape_congr (s : State) {v w : Word} {t : Nat} (h32 : t ≤ 32)
    (h : ∀ i, i < t + 1 → v.getLsbD i = w.getLsbD i) : writeParShape s v t = writeParShape s w t := by
  have hloop : (List.range t).flatMap (writeParTickShape s v) = (List.range t).flatMap (writeParTickShape s w) :=
    List.flatMap_congr fun i hi => by
      rw [writeParTickShape, writeParTickShape, h (i + 1) (Nat.succ_lt_succ (List.mem_range.1 hi))]
  rw [writeParShape, writeParShape, hloop, h 0 t.succ_pos, writeParity_congr h32 fun i hi => h i (Nat.lt_succ_of_lt hi)]

/-- Settles O24: the shapes name no higher bit. -/
theorem highOperandBitsAreNotSent : Obligations.HighOperandBitsAreNotSent := by
  intro v w t s h2 h3 h1 h32
  refine ⟨fun hlow => ?_, fun hlow => ?_⟩
  · have hx (x : Word) := exec_of_admitted (i := .write x t) (s := s) ⟨h2, h1, h32⟩
    refine ⟨_, _, hx v, hx w, ?_⟩
    rw [newEvents_of_exec (hx v), newEvents_of_exec (hx w)]
    exact congrArg _ (writeShape_congr s h1 hlow)
  · have hx (x : Word) := exec_of_admitted (i := .writeWithParity x t) (s := s) ⟨h3, h1, h32⟩
    refine ⟨_, _, hx v, hx w, ?_⟩
    rw [newEvents_of_exec (hx v), newEvents_of_exec (hx w)]
    exact congrArg _ (writeParShape_congr s h32 hlow)

end Sys2Proof.Machine
end

section
/-! What an observer of the two lines sees of a command (spec/20_memory.md R52, R66, R67; 42_seq_out.md R131, R135): the
latches after its events, its rising edges, and what holds at each of its samples and data changes. -/

namespace Sys2Proof.Machine

open Sys2Proof.Safety

/-! ### Event by event -/

variable (p : Pins)

@[simp] theorem afterAll_nil : p.afterAll [] = p := rfl
@[simp] theorem afterAll_clk (l : Level) (es : List Event) :
    p.afterAll (.clk l :: es) = Pins.afterAll ⟨l, p.dio, p.oe⟩ es := rfl
@[simp] theorem afterAll_dio (v : Level) (es : List Event) :
    p.afterAll (.dio v :: es) = Pins.afterAll ⟨p.clk, v, p.oe⟩ es := rfl
@[simp] theorem afterAll_mode (m : PinMode) (es : List Event) :
    p.afterAll (.mode m :: es) = Pins.afterAll ⟨p.clk, p.dio, m⟩ es := rfl
@[simp] theorem afterAll_sample (v : Level) (es : List Event) : p.afterAll (.sample v :: es) = p.afterAll es := rfl

@[simp] theorem risingCapture_nil : risingCapture p [] = [] := rfl
@[simp] theorem risingCapture_fall (es : List Event) :
    risingCapture p (.clk false :: es) = risingCapture ⟨false, p.dio, p.oe⟩ es := rfl
@[simp] theorem risingCapture_rise (es : List Event) :
    risingCapture p (.clk true :: es) =
      (if p.clk then [] else [(p.oe, p.dio)]) ++ risingCapture ⟨true, p.dio, p.oe⟩ es := by
  obtain ⟨clk, dio, oe⟩ := p
  cases clk <;> rfl
@[simp] theorem risingCapture_dio (v : Level) (es : List Event) :
    risingCapture p (.dio v :: es) = risingCapture ⟨p.clk, v, p.oe⟩ es := rfl
@[simp] theorem risingCapture_mode (m : PinMode) (es : List Event) :
    risingCapture p (.mode m :: es) = risingCapture ⟨p.clk, p.dio, m⟩ es := rfl
@[simp] theorem risingCapture_sample (v : Level) (es : List Event) :
    risingCapture p (.sample v :: es) = risingCapture p es := rfl

@[simp] theorem samplesWhileLow_nil : samplesWhileLow p [] = true := rfl
@[simp] theorem samplesWhileLow_clk (l : Level) (es : List Event) :
    samplesWhileLow p (.clk l :: es) = samplesWhileLow ⟨l, p.dio, p.oe⟩ es := rfl
@[simp] theorem samplesWhileLow_sample (v : Level) (es : List Event) :
    samplesWhileLow p (.sample v :: es) = (!p.clk && samplesWhileLow p es) := rfl

@[simp] theorem dataChangesWhileLow_nil : dataChangesWhileLow p [] = true := rfl
@[simp] theorem dataChangesWhileLow_clk (l : Level) (es : List Event) :
    dataChangesWhileLow p (.clk l :: es) = dataChangesWhileLow ⟨l, p.dio, p.oe⟩ es := rfl
@[simp] theorem dataChangesWhileLow_dio (v : Level) (es : List Event) :
    dataChangesWhileLow p (.dio v :: es) =
      ((v == p.dio || !p.clk) && dataChangesWhileLow ⟨p.clk, v, p.oe⟩ es) := rfl

/-- A wait is neither an edge, nor a sample, nor a data change. -/
@[simp] theorem risingCapture_waitShape (l : Config.Link) (n : DelayCount) : risingCapture p (waitShape l n) = [] := by
  unfold waitShape
  split <;> rfl

/-- A set phase is one rising edge where the clock was low, on either variant (R7). -/
@[simp] theorem risingCapture_setShape (l : Config.Link) :
    risingCapture p (setShape l) = if p.clk then [] else [(p.oe, p.dio)] := by
  unfold setShape
  split <;> simp

@[simp] theorem afterAll_setShape (l : Config.Link) : p.afterAll (setShape l) = ⟨true, p.dio, p.oe⟩ := by
  unfold setShape
  split <;> rfl

/-- Events without a sample. -/
theorem samplesWhileLow_of_no_sample {es : List Event} (h : ∀ v, .sample v ∉ es) : samplesWhileLow p es = true := by
  induction es generalizing p with
  | nil => rfl
  | cons e es ih =>
    have hes := ih (p.after e) fun v hv => h v (List.mem_cons_of_mem _ hv)
    cases e with
    | sample v => exact absurd List.mem_cons_self (h v)
    | _ => exact hes

/-- Events that do not drive the data line. -/
theorem dataChangesWhileLow_of_no_dio {es : List Event} (h : ∀ v, .dio v ∉ es) : dataChangesWhileLow p es = true := by
  induction es generalizing p with
  | nil => rfl
  | cons e es ih =>
    have hes := ih (p.after e) fun v hv => h v (List.mem_cons_of_mem _ hv)
    cases e with
    | dio v => exact absurd List.mem_cons_self (h v)
    | _ => exact hes

/-- Each falling edge undoes a rising one: with the clock level at the end, there are as many as rising edges with the
clock level at the start. -/
theorem fallingEdges_add_clk (es : List Event) :
    fallingEdges p es + (p.afterAll es).clk.toNat = risingEdges p es + p.clk.toNat := by
  induction es generalizing p with
  | nil => simp [fallingEdges, risingEdges]
  | cons e es ih =>
    have hes := ih (p.after e)
    rw [afterAll_cons, fallingEdges]
    obtain ⟨clk, dio, oe⟩ := p
    rcases e with (_ | _) | v | m | v | n <;> cases clk <;>
      simp [risingEdges, risingCapture, isRise, isFall, Pins.after] at hes ⊢ <;> omega

/-- The last level of the wires is where the latches end. -/
theorem levelHistory_concat_getLast? (es : List Event) (e : Event) :
    (levelHistory p (es ++ [e])).getLast? =
      some ((p.afterAll (es ++ [e])).clk, (p.afterAll (es ++ [e])).dataWire) := by
  rw [levelHistory_append, afterAll_append]
  simp [levelHistory, Pins.afterAll]

/-! ### The turnaround -/

/-- The pad's mode after a request for `d`. -/
def padAfter (d : Direction) (s : State) : PinMode := if d = s.dir then s.dioOe else d.mode

/-- From a coherent state the pad ends in the mode of the requested direction. -/
theorem padAfter_of_coherent (d : Direction) {s : State} (h : coherent s = true) : padAfter d s = d.mode := by
  unfold padAfter
  split
  · next hd => rw [hd]; exact eq_of_beq h
  · rfl

/-- The latches after the turnaround. -/
theorem afterAll_turnaroundShape (d : Direction) (s : State) :
    s.pins.afterAll (turnaroundShape d s) = ⟨if d = s.dir then s.clkO else false, s.dioO, padAfter d s⟩ := by
  rcases direction_cases d s with h | ⟨rfl, h⟩ | ⟨rfl, h⟩
  · rw [turnaroundShape_same h, padAfter, if_pos h, if_pos h]
    rfl
  · simp [turnaroundShape_float h, pulseShape, afterAll_append, padAfter, h, State.pins, Direction.mode]
  · simp [turnaroundShape_drive h, pulseShape, afterAll_append, padAfter, h, State.pins, Direction.mode]

/-- The rising-edge capture of the turnaround from an idle-low state: one entry, with the pad released towards `Float` and
as it was towards `Drive`. -/
def turnaroundCapture (d : Direction) (s : State) : List (PinMode × Level) :=
  List.replicate (if d = s.dir then 0 else 1) (if d = .float then .input else s.dioOe, s.dioO)

theorem risingCapture_turnaroundShape (d : Direction) {s : State} (hlow : s.clkO = false) :
    risingCapture s.pins (turnaroundShape d s) = turnaroundCapture d s := by
  rcases direction_cases d s with h | ⟨rfl, h⟩ | ⟨rfl, h⟩
  · rw [turnaroundShape_same h, turnaroundCapture, if_pos h]
    rfl
  · simp [turnaroundShape_float h, pulseShape, risingCapture_append, turnaroundCapture, h, hlow, State.pins]
  · simp [turnaroundShape_drive h, pulseShape, risingCapture_append, turnaroundCapture, h, hlow, State.pins]

/-- From a coherent state the pad is an input on the turnaround's edge. -/
theorem turnaroundCapture_of_coherent (d : Direction) {s : State} (h : coherent s = true) :
    turnaroundCapture d s = List.replicate (if d = s.dir then 0 else 1) (.input, s.dioO) := by
  rcases direction_cases d s with hd | ⟨rfl, hd⟩ | ⟨rfl, hd⟩
  · simp [turnaroundCapture, if_pos hd]
  · simp [turnaroundCapture]
  · have ho : s.dioOe = .input := by simpa [coherent, hd, Direction.mode] using h
    simp [turnaroundCapture, ho]

/-- The events of a turnaround. -/
theorem newEvents_turnaround (d : Direction) (s : State) : newEvents s (turnaround d s) = turnaroundShape d s :=
  newEvents_of_append (by rw [turnaround_fields])

/-- Settles O11: the capture of the pulse, and the latches its last event leaves. -/
theorem turnaroundEdgeIsUndriven : Obligations.TurnaroundEdgeIsUndriven := by
  intro d s hco hlow hd
  have hclk : s.clkO = false := Bool.eq_false_of_not_eq_true' hlow
  rw [newEvents_turnaround]
  refine ⟨?_, fun hdrive => ?_⟩
  · rw [risingCapture_turnaroundShape d hclk, turnaroundCapture_of_coherent d hco, if_neg hd]
    rfl
  · subst hdrive
    have hfloat : s.dir = .float := by cases h : s.dir <;> simp_all
    have hpins := afterAll_turnaroundShape .drive s
    rw [if_neg hd, padAfter, if_neg hd, turnaroundShape_drive hfloat] at hpins
    rw [turnaroundShape_drive hfloat, levelHistory_concat_getLast?, hpins]
    rfl

/-! ### Bit loops -/

section Loop

variable {f : Nat → List Event} {clk level : Level} {data : Nat → Level} {pad : PinMode}

/-- A loop whose tick `i` leaves the clock at `level` and the data latch at `data (i + 1)`, from `data i`, whatever the
clock was. -/
theorem afterAll_loop (hf : ∀ i c, Pins.afterAll ⟨c, data i, pad⟩ (f i) = ⟨level, data (i + 1), pad⟩) (n : Nat) :
    Pins.afterAll ⟨clk, data 0, pad⟩ ((List.range n).flatMap f) = ⟨if n = 0 then clk else level, data n, pad⟩ := by
  induction n with
  | zero => rfl
  | succ n ih => simp [List.range_succ, List.flatMap_append, afterAll_append, ih, hf]

/-- If moreover each tick has one rising edge, which finds `e i` on the data latch, the loop has those edges in order. -/
theorem risingCapture_loop (hf : ∀ i c, Pins.afterAll ⟨c, data i, pad⟩ (f i) = ⟨level, data (i + 1), pad⟩) {e : Nat → Level}
    (he : ∀ i c, c = clk ∨ c = level → risingCapture ⟨c, data i, pad⟩ (f i) = [(pad, e i)]) (n : Nat) :
    risingCapture ⟨clk, data 0, pad⟩ ((List.range n).flatMap f) = (List.range n).map fun i => (pad, e i) := by
  induction n with
  | zero => rfl
  | succ n ih =>
    simp [List.range_succ, List.flatMap_append, risingCapture_append, ih, afterAll_loop hf, he n _ (ite_eq_or_eq ..)]

/-- What an observer checks event by event holds throughout the loop if it holds throughout each tick. -/
theorem check_loop {check : Pins → List Event → Bool} (hnil : ∀ p, check p [] = true)
    (happend : ∀ a b p, check p (a ++ b) = (check p a && check (p.afterAll a) b))
    (hf : ∀ i c, Pins.afterAll ⟨c, data i, pad⟩ (f i) = ⟨level, data (i + 1), pad⟩)
    (hcheck : ∀ i c, c = clk ∨ c = level → check ⟨c, data i, pad⟩ (f i) = true) (n : Nat) :
    check ⟨clk, data 0, pad⟩ ((List.range n).flatMap f) = true := by
  induction n with
  | zero => exact hnil _
  | succ n ih =>
    simp [List.range_succ, List.flatMap_append, happend, ih, afterAll_loop hf, hcheck n _ (ite_eq_or_eq ..)]

end Loop

/-! ### The four operations after their turnaround -/

section Bodies

variable (s : State) (w : Word) (t : Nat) (c d : Level) (o : PinMode)

@[simp] theorem samplesWhileLow_waitShape (p : Pins) (l : Config.Link) (n : DelayCount) :
    samplesWhileLow p (waitShape l n) = true :=
  samplesWhileLow_of_no_sample p fun v => sample_not_mem_waitShape v l n

@[simp] theorem dataChangesWhileLow_waitShape (p : Pins) (l : Config.Link) (n : DelayCount) :
    dataChangesWhileLow p (waitShape l n) = true :=
  dataChangesWhileLow_of_no_dio p fun v => dio_not_mem_waitShape v l n

/-- The ticks of `read` by their number. -/
theorem readShape_samples :
    readShape s (samples s t) = (List.range t).flatMap fun i => readTickShape s (sampleAt s i) := by
  rw [readShape, samples, List.flatMap_map]

/-- The ticks of `readWithParity` by their number. -/
theorem readParShape_samples (p : Level) :
    readParShape s (samples s t) p =
      ((List.range t).flatMap fun i => readParTickShape s (sampleAt s i)) ++ readParEndShape s p := by
  rw [readParShape, samples, List.flatMap_map]

theorem afterAll_readTickShape (v : Level) : Pins.afterAll ⟨c, d, o⟩ (readTickShape s v) = ⟨false, d, o⟩ := by
  simp [readTickShape, afterAll_append]

theorem afterAll_readParTickShape (v : Level) : Pins.afterAll ⟨c, d, o⟩ (readParTickShape s v) = ⟨true, d, o⟩ := by
  simp [readParTickShape]

theorem afterAll_writeTickShape (i : Nat) :
    Pins.afterAll ⟨c, d, o⟩ (writeTickShape s w i) = ⟨true, w.getLsbD i, o⟩ := by
  simp [writeTickShape]

theorem afterAll_writeParTickShape (i : Nat) :
    Pins.afterAll ⟨c, d, o⟩ (writeParTickShape s w i) = ⟨false, w.getLsbD (i + 1), o⟩ := by
  simp [writeParTickShape, afterAll_append]

/-- The data latch before tick `i` of `write`: the old level before the first, then the bit of the tick before. -/
def writeData (w : Word) (d : Level) : Nat → Level
  | 0 => d
  | i + 1 => w.getLsbD i

theorem afterAll_readShape :
    Pins.afterAll ⟨c, d, o⟩ (readShape s (samples s t)) = ⟨if t = 0 then c else false, d, o⟩ := by
  rw [readShape_samples]
  exact afterAll_loop (data := fun _ => d) (fun i c => afterAll_readTickShape s c d o _) t

theorem risingCapture_readShape :
    risingCapture ⟨false, d, o⟩ (readShape s (samples s t)) = List.replicate t (o, d) := by
  rw [readShape_samples]
  have hloop := risingCapture_loop (clk := false) (data := fun _ => d) (e := fun _ => d)
    (fun i c => afterAll_readTickShape s c d o (sampleAt s i))
    (fun i c hc => by simp at hc; simp [hc, readTickShape, risingCapture_append]) t
  simpa using hloop

theorem samplesWhileLow_readShape : samplesWhileLow ⟨false, d, o⟩ (readShape s (samples s t)) = true := by
  rw [readShape_samples]
  exact check_loop (data := fun _ => d) samplesWhileLow_nil samplesWhileLow_append
    (fun i c => afterAll_readTickShape s c d o (sampleAt s i))
    (fun i c hc => by simp at hc; simp [hc, readTickShape, samplesWhileLow_append]) t

theorem afterAll_readParShape (p : Level) :
    Pins.afterAll ⟨c, d, o⟩ (readParShape s (samples s t) p) = ⟨false, d, o⟩ := by
  rw [readParShape_samples, afterAll_append,
    afterAll_loop (data := fun _ => d) fun i c => afterAll_readParTickShape s c d o (sampleAt s i)]
  simp [readParEndShape, afterAll_append]

theorem risingCapture_readParShape (p : Level) :
    risingCapture ⟨c, d, o⟩ (readParShape s (samples s t) p) = List.replicate (t + 1) (o, d) := by
  have hf (i : Nat) (c : Level) := afterAll_readParTickShape s c d o (sampleAt s i)
  have hloop := risingCapture_loop (clk := c) (data := fun _ => d) (e := fun _ => d) hf
    (fun i c _ => by simp [readParTickShape]) t
  rw [readParShape_samples, risingCapture_append, hloop, afterAll_loop (data := fun _ => d) hf]
  simp [readParEndShape, risingCapture_append, List.replicate_succ']

theorem samplesWhileLow_readParShape (p : Level) :
    samplesWhileLow ⟨c, d, o⟩ (readParShape s (samples s t) p) = true := by
  have hf (i : Nat) (c : Level) := afterAll_readParTickShape s c d o (sampleAt s i)
  have hloop := check_loop (clk := c) (data := fun _ => d) samplesWhileLow_nil samplesWhileLow_append hf
    (fun i c _ => by simp [readParTickShape]) t
  rw [readParShape_samples, samplesWhileLow_append, hloop, afterAll_loop (data := fun _ => d) hf]
  simp [readParEndShape, samplesWhileLow_append]

theorem afterAll_writeShape : Pins.afterAll ⟨c, d, o⟩ (writeShape s w t) =
    ⟨false, writeData w (w.getLsbD 0) t, o⟩ := by
  have hloop := afterAll_loop (clk := c) (data := writeData w (w.getLsbD 0))
    (fun i c => afterAll_writeTickShape s w c _ o i) t
  rw [writeShape, afterAll_dio, afterAll_append]
  exact congrArg (Pins.afterAll · [.clk false]) hloop

theorem risingCapture_writeShape : risingCapture ⟨c, d, o⟩ (writeShape s w t) =
    (List.range t).map fun i => (o, w.getLsbD i) := by
  have hloop := risingCapture_loop (clk := c) (data := writeData w (w.getLsbD 0)) (e := w.getLsbD)
    (fun i c => afterAll_writeTickShape s w c _ o i) (fun i c _ => by simp [writeTickShape]) t
  rw [writeShape, risingCapture_dio, risingCapture_append]
  simpa [writeData] using hloop

theorem dataChangesWhileLow_writeShape : dataChangesWhileLow ⟨false, d, o⟩ (writeShape s w t) = true := by
  have hloop := check_loop (clk := false) (data := writeData w (w.getLsbD 0)) dataChangesWhileLow_nil
    dataChangesWhileLow_append (fun i c => afterAll_writeTickShape s w c _ o i) (fun i c _ => by simp [writeTickShape]) t
  rw [writeShape, dataChangesWhileLow_dio, dataChangesWhileLow_append]
  simpa [writeData] using hloop

theorem afterAll_writeParShape : Pins.afterAll ⟨c, d, o⟩ (writeParShape s w t) = ⟨false, writeParity w t, o⟩ := by
  have hloop := afterAll_loop (clk := c) (data := w.getLsbD) (fun i c => afterAll_writeParTickShape s w c _ o i) t
  rw [writeParShape, afterAll_dio, afterAll_append, hloop]
  simp [writeParEndShape, afterAll_append]

theorem risingCapture_writeParShape : risingCapture ⟨false, d, o⟩ (writeParShape s w t) =
    ((List.range t).map fun i => (o, w.getLsbD i)) ++ [(o, writeParity w t)] := by
  have hf (i : Nat) (c : Level) := afterAll_writeParTickShape s w c (w.getLsbD i) o i
  have hloop := risingCapture_loop (clk := false) (data := w.getLsbD) (e := w.getLsbD) hf
    (fun i c hc => by simp at hc; simp [hc, writeParTickShape, risingCapture_append]) t
  rw [writeParShape, risingCapture_dio, risingCapture_append, hloop, afterAll_loop hf]
  simp [writeParEndShape, risingCapture_append]

end Bodies

end Sys2Proof.Machine
end

section
/-! The wire laws of whole commands (spec/20_memory.md R52, R55, R67; 41_seq_in.md R118; 42_seq_out.md R131, R135, R140). -/

namespace Sys2Proof.Machine

open Sys2Proof.Safety

/-! ### The latches follow the trace -/

/-- Replaying the events of an admitted command gives the latches it leaves. -/
theorem afterAll_commandEvents {i : Instr} {s : State} (h : admitted s i) :
    s.pins.afterAll (commandEvents i s) = (afterCommand i s).pins := by
  have hpad (d : Direction) : padAfter d s = if s.dir = d then s.dioOe else d.mode := by simp only [padAfter, eq_comm]
  cases i with
  | read t =>
    obtain ⟨-, h1, -⟩ := h
    rw [commandEvents, afterAll_append, afterAll_turnaroundShape, afterAll_readShape, if_neg (by omega), hpad]
    rfl
  | readWithParity t =>
    rw [commandEvents, afterAll_append, afterAll_turnaroundShape, afterAll_readParShape, hpad]
    rfl
  | write w t =>
    obtain ⟨-, h1, -⟩ := h
    obtain ⟨n, hn⟩ := Nat.exists_eq_add_of_le' h1
    rw [commandEvents, afterAll_append, afterAll_turnaroundShape, afterAll_writeShape, hpad]
    simp only [afterCommand, afterWrite, State.pins, hn, writeData, Nat.add_sub_cancel]
    rfl
  | writeWithParity w t =>
    rw [commandEvents, afterAll_append, afterAll_turnaroundShape, afterAll_writeParShape, hpad]
    rfl
  | init => rfl
  | configureTiming p => rfl

/-- The latches after a completed command. -/
theorem pins_of_exec {i : Instr} {s u : State} (h : exec i s = .next u) :
    u.pins = s.pins.afterAll (newEvents s u) := by
  obtain ⟨hadm, hu⟩ := exec_eq_next.1 h
  rw [newEvents_of_exec h, afterAll_commandEvents hadm, hu]

/-- Settles O34: command by command at a command boundary, and phase by phase inside one. -/
theorem latchesFollowTheTrace : Obligations.LatchesFollowTheTrace := by
  intro s u h
  rcases step_eq_next_cases h with ⟨-, -, rfl⟩ | ⟨-, c, rest, i, -, -, hx⟩ | ⟨-, rfl⟩
  · simp [newEvents]
  · obtain ⟨-, hu⟩ := exec_eq_next.1 hx
    have htrace : u.trace = s.trace ++ commandEvents i { s with host := rest } := hu ▸ afterCommand_trace i _
    have hpins := pins_of_exec hx
    rw [newEvents_of_exec hx] at hpins
    rw [newEvents_of_append htrace]
    exact ⟨htrace, hpins⟩
  · have p := phaseStep_performs s
    rw [newEvents_of_append p.trace]
    exact ⟨p.trace, p.pins⟩

/-! ### Rising edges -/

/-- The rising-edge capture of a command from an idle-low state: the turnaround's entry, then one for each tick and one
for a parity cycle, with the pad as the turnaround leaves it. -/
def commandCapture (i : Instr) (s : State) : List (PinMode × Level) :=
  match i with
  | .read t => turnaroundCapture .float s ++ List.replicate t.toNat (padAfter .float s, s.dioO)
  | .readWithParity t => turnaroundCapture .float s ++ List.replicate (t.toNat + 1) (padAfter .float s, s.dioO)
  | .write w t =>
      turnaroundCapture .drive s ++ (List.range t.toNat).map fun i => (padAfter .drive s, w.getLsbD i)
  | .writeWithParity w t =>
      turnaroundCapture .drive s ++ (((List.range t.toNat).map fun i => (padAfter .drive s, w.getLsbD i)) ++
        [(padAfter .drive s, writeParity w t.toNat)])
  | .init => []
  | .configureTiming _ => []

theorem risingCapture_commandEvents (i : Instr) {s : State} (hlow : s.clkO = false) :
    risingCapture s.pins (commandEvents i s) = commandCapture i s := by
  have hafter (d : Direction) : s.pins.afterAll (turnaroundShape d s) = ⟨false, s.dioO, padAfter d s⟩ := by
    rw [afterAll_turnaroundShape, hlow, ite_self]
  cases i with
  | read t =>
    rw [commandEvents, risingCapture_append, risingCapture_turnaroundShape _ hlow, hafter, risingCapture_readShape]
    rfl
  | readWithParity t =>
    rw [commandEvents, risingCapture_append, risingCapture_turnaroundShape _ hlow, hafter, risingCapture_readParShape]
    rfl
  | write w t =>
    rw [commandEvents, risingCapture_append, risingCapture_turnaroundShape _ hlow, hafter, risingCapture_writeShape]
    rfl
  | writeWithParity w t =>
    rw [commandEvents, risingCapture_append, risingCapture_turnaroundShape _ hlow, hafter, risingCapture_writeParShape]
    rfl
  | init => rfl
  | configureTiming p => rfl

/-- The capture of a completed command. -/
theorem risingCapture_of_exec {i : Instr} {s u : State} (h : exec i s = .next u) (hlow : idleLow s = true) :
    risingCapture s.pins (newEvents s u) = commandCapture i s := by
  rw [newEvents_of_exec h, risingCapture_commandEvents i (Bool.eq_false_of_not_eq_true' hlow)]

theorem turnaroundCapture_length (d : Direction) (s : State) :
    (turnaroundCapture d s).length = if d = s.dir then 0 else 1 := List.length_replicate

/-- The capture has the stated number of entries (R67). -/
theorem commandCapture_length (i : Instr) (s : State) : (commandCapture i s).length = edgeCount s i := by
  cases i <;> simp [commandCapture, edgeCount, turns, requests, turnaroundCapture_length] <;> omega

/-- Settles O33: the capture has the stated length, and between two low levels there are as many falling edges. -/
theorem commandRisingEdges : Obligations.CommandRisingEdges := by
  intro i s u hlow h
  have hrise : risingEdges s.pins (newEvents s u) = edgeCount s i := by
    rw [risingEdges, risingCapture_of_exec h hlow, commandCapture_length]
  have hu : idleLow u = true := by
    obtain ⟨-, rfl⟩ := exec_eq_next.1 h
    exact idleLow_afterCommand i hlow
  have hfall := fallingEdges_add_clk s.pins (newEvents s u)
  rw [← pins_of_exec h, hrise, show s.pins.clk = false from Bool.eq_false_of_not_eq_true' hlow,
    show u.pins.clk = false from Bool.eq_false_of_not_eq_true' hu] at hfall
  exact ⟨hrise, hfall, hu⟩

/-! ### Samples -/

/-- Settles O17: the turnaround samples nothing and leaves the clock low, and each tick samples before its raise. -/
theorem readersSampleWithTheClockLow : Obligations.ReadersSampleWithTheClockLow := by
  intro i s u hlow h
  have hafter (d : Direction) : s.pins.afterAll (turnaroundShape d s) = ⟨false, s.dioO, padAfter d s⟩ := by
    rw [afterAll_turnaroundShape, Bool.eq_false_of_not_eq_true' hlow, ite_self]
  have hturn (d : Direction) : samplesWhileLow s.pins (turnaroundShape d s) = true :=
    samplesWhileLow_of_no_sample _ fun v => sample_not_mem_turnaroundShape v d s
  rw [newEvents_of_exec h]
  cases i with
  | read t =>
    rw [commandEvents, samplesWhileLow_append, hturn, hafter, samplesWhileLow_readShape]
    rfl
  | readWithParity t =>
    rw [commandEvents, samplesWhileLow_append, hturn, hafter, samplesWhileLow_readParShape]
    rfl
  | _ => exact samplesWhileLow_of_no_sample _ fun v hv => nomatch requests_of_sample_mem hv

/-! ### Both variants -/

/-- Two lists of events that leave the same latches and have the same rising-edge capture, wherever they start. -/
structure SameEdges (es fs : List Event) : Prop where
  capture : ∀ p : Pins, risingCapture p es = risingCapture p fs
  latches : ∀ p : Pins, p.afterAll es = p.afterAll fs

theorem SameEdges.refl (es : List Event) : SameEdges es es := ⟨fun _ => rfl, fun _ => rfl⟩

theorem SameEdges.append {es fs es' fs' : List Event} (h : SameEdges es fs) (h' : SameEdges es' fs') :
    SameEdges (es ++ es') (fs ++ fs') where
  capture p := by rw [risingCapture_append, risingCapture_append, h.capture, h.latches, h'.capture]
  latches p := by rw [afterAll_append, afterAll_append, h.latches, h'.latches]

theorem SameEdges.cons {es fs : List Event} (e : Event) (h : SameEdges es fs) : SameEdges (e :: es) (e :: fs) :=
  (SameEdges.refl [e]).append h

theorem SameEdges.flatMap {α : Type} {f g : α → List Event} (h : ∀ x, SameEdges (f x) (g x)) (xs : List α) :
    SameEdges (xs.flatMap f) (xs.flatMap g) := by
  induction xs with
  | nil => exact .refl []
  | cons x xs ih => exact (h x).append ih

theorem sameEdges_waitShape (l l' : Config.Link) (n n' : DelayCount) : SameEdges (waitShape l n) (waitShape l' n') :=
  ⟨fun p => by simp, fun p => by simp⟩

theorem sameEdges_setShape (l l' : Config.Link) : SameEdges (setShape l) (setShape l') :=
  ⟨fun p => by simp, fun p => by simp⟩

theorem sameEdges_pulseShape (s : State) (l : Config.Link) : SameEdges (pulseShape s) (pulseShape { s with link := l }) :=
  (sameEdges_setShape ..).append ((sameEdges_waitShape ..).append (.refl _))

theorem sameEdges_turnaroundShape (d : Direction) (s : State) (l : Config.Link) :
    SameEdges (turnaroundShape d s) (turnaroundShape d { s with link := l }) := by
  rcases direction_cases d s with h | ⟨rfl, h⟩ | ⟨rfl, h⟩
  · rw [turnaroundShape_same h, turnaroundShape_same (s := { s with link := l }) h]
    exact .refl _
  · rw [turnaroundShape_float h, turnaroundShape_float (s := { s with link := l }) h]
    exact (sameEdges_pulseShape s l).cons _
  · rw [turnaroundShape_drive h, turnaroundShape_drive (s := { s with link := l }) h]
    exact (sameEdges_pulseShape s l).append (.refl _)

/-- The two variants of a command differ in waits and repeated raises alone. -/
theorem sameEdges_commandEvents (i : Instr) (s : State) (l : Config.Link) :
    SameEdges (commandEvents i s) (commandEvents i { s with link := l }) := by
  have hw := sameEdges_waitShape s.link l
  cases i with
  | read t =>
    exact (sameEdges_turnaroundShape ..).append
      (.flatMap (fun _ => ((((hw _ _).append (.refl _)).cons _).cons _)) _)
  | readWithParity t =>
    exact (sameEdges_turnaroundShape ..).append
      ((SameEdges.flatMap (fun _ => (((hw _ _).cons _).cons _).cons _) _).append
        (((((hw _ _).append (.refl _)).cons _).cons _).cons _))
  | write w t =>
    exact (sameEdges_turnaroundShape ..).append
      (((SameEdges.flatMap (fun _ => (((hw _ _).cons _).cons _).cons _) _).append (.refl _)).cons _)
  | writeWithParity w t =>
    exact (sameEdges_turnaroundShape ..).append
      (((SameEdges.flatMap (fun _ => (((hw _ _).append (.refl _)).cons _).cons _) _).append
        ((((hw _ _).append ((sameEdges_setShape ..).append ((hw _ _).append (.refl _)))).cons _).cons _)).cons _)
  | init => exact .refl _
  | configureTiming p => exact .refl _

/-- Settles O40: `afterCommand` reads the link in the trace alone, and there in waits and repeated raises. -/
theorem variantChangesNoResult : Obligations.VariantChangesNoResult := by
  intro i s u v ht hu hv
  have hcapture := (sameEdges_commandEvents i { s with link := { s.link with fixedClkWidth := true } }
    { s.link with fixedClkWidth := false }).capture s.pins
  rw [← newEvents_of_exec hu] at hcapture
  refine ⟨?_, hcapture.trans (congrArg _ (newEvents_of_exec hv).symm)⟩
  obtain ⟨-, rfl⟩ := exec_eq_next.1 hu
  obtain ⟨-, rfl⟩ := exec_eq_next.1 hv
  cases i with
  | init => cases ht
  | configureTiming p => cases ht
  | _ => rfl

/-! ### The writers' wire laws -/

/-- From a coherent state `write` presents the low `t` bits, after the turnaround's undriven entry if it turned. -/
theorem commandCapture_write (w : Word) (t : BitVec 6) {s : State} (h : coherent s = true) :
    commandCapture (.write w t) s = List.replicate (turns s (.write w t)) (.input, s.dioO) ++
      (List.range t.toNat).map fun i => (.output, w.getLsbD i) := by
  rw [commandCapture, turnaroundCapture_of_coherent .drive h, padAfter_of_coherent .drive h]
  rfl

/-- From a coherent state `writeWithParity` presents the low `t` bits and the parity bit likewise. -/
theorem commandCapture_writeWithParity (w : Word) (t : BitVec 6) {s : State} (h : coherent s = true) :
    commandCapture (.writeWithParity w t) s = List.replicate (turns s (.writeWithParity w t)) (.input, s.dioO) ++
      (((List.range t.toNat).map fun i => (.output, w.getLsbD i)) ++ [(.output, writeParity w t.toNat)]) := by
  rw [commandCapture, turnaroundCapture_of_coherent .drive h, padAfter_of_coherent .drive h]
  rfl

/-- After a writer, from a coherent state, the pad is an output. -/
theorem dioOe_after_writer {i : Instr} {s : State} (hi : requests i = some .drive) (h : coherent s = true) :
    (afterCommand i s).dioOe = .output := by
  rw [(afterCommand_of_requests s hi).2]
  exact padAfter_of_coherent .drive h

/-- Settles O20: the capture of `write`, its data changes, and the latches it leaves. -/
theorem writePresentsBitsOnRisingEdges : Obligations.WritePresentsBitsOnRisingEdges := by
  intro w t s hs h1 h32 hco hlow
  have hx := exec_of_admitted (i := .write w t) (s := s) ⟨hs, h1, h32⟩
  refine ⟨_, hx, ?_, ?_, rfl, rfl, rfl, dioOe_after_writer rfl hco⟩
  · rw [risingCapture_of_exec hx hlow, commandCapture_write w t hco]
  · have hturn : dataChangesWhileLow s.pins (turnaroundShape .drive s) = true :=
      dataChangesWhileLow_of_no_dio _ fun v => dio_not_mem_turnaroundShape v .drive s
    rw [newEvents_of_exec hx, commandEvents, dataChangesWhileLow_append, hturn, afterAll_turnaroundShape,
      Bool.eq_false_of_not_eq_true' hlow, ite_self, dataChangesWhileLow_writeShape]
    rfl

/-- The transmitted parity is the exclusive or of the transmitted bits. -/
theorem writeParity_eq_xor (w : Word) {t : Nat} (h : t ≤ 32) :
    writeParity w t = (List.range t).foldl (fun b i => b ^^ w.getLsbD i) false := by
  rw [countP_odd, writeParity, oddOnes, popcount_and_mask w h, Bool.false_xor]

/-- Settles O22: the capture of `writeWithParity` and the latches it leaves. -/
theorem writeWithParityPresentsBitsAndParity : Obligations.WriteWithParityPresentsBitsAndParity := by
  intro w t s hs h1 h32 hco hlow
  have hx := exec_of_admitted (i := .writeWithParity w t) (s := s) ⟨hs, h1, h32⟩
  refine ⟨_, hx, ?_, writeParity_eq_xor w h32, rfl, rfl, dioOe_after_writer rfl hco⟩
  rw [risingCapture_of_exec hx hlow, commandCapture_writeWithParity w t hco, writeParity_eq_xor w h32, List.append_assoc]

/-- Settles O25: the first command leaves the link driving, coherent and idle-low, so the second adds its bits alone. -/
theorem splitWriteSendsTheSameBits : Obligations.SplitWriteSendsTheSameBits := by
  intro w t1 t2 t s hs hco hlow h1 h2 ht h32
  have ha := exec_of_admitted (i := .write w t1) (s := s) ⟨hs, h1, by omega⟩
  have hb := exec_of_admitted (i := .write (w >>> t1.toNat) t2) (s := afterWrite w t1 s) ⟨hs, h2, by omega⟩
  have hc := exec_of_admitted (i := .write w t) (s := s) ⟨hs, by omega, h32⟩
  refine ⟨_, _, _, ha, hb, hc, ?_⟩
  have hco' : coherent (afterWrite w t1 s) = true := coherent_afterCommand (i := .write w t1) hco nofun
  have hevents : newEvents s (afterCommand (.write (w >>> t1.toNat) t2) (afterWrite w t1 s)) =
      commandEvents (.write w t1) s ++ commandEvents (.write (w >>> t1.toNat) t2) (afterWrite w t1 s) :=
    newEvents_of_append (by
      rw [afterCommand_trace, show (afterWrite w t1 s).trace = _ from afterCommand_trace (.write w t1) s,
        List.append_assoc])
  have hpins : s.pins.afterAll (commandEvents (.write w t1) s) = (afterWrite w t1 s).pins :=
    afterAll_commandEvents (i := .write w t1) ⟨hs, h1, by omega⟩
  have hclk : s.clkO = false := Bool.eq_false_of_not_eq_true' hlow
  have hrecorded : turns (afterWrite w t1 s) (.write (w >>> t1.toNat) t2) = 0 := rfl
  rw [hevents, risingCapture_append, hpins, risingCapture_commandEvents _ hclk, risingCapture_commandEvents _ rfl,
    risingCapture_of_exec hc hlow, commandCapture_write _ _ hco, commandCapture_write _ _ hco,
    commandCapture_write _ _ hco', hrecorded, ht, List.range_add, List.map_append, List.map_map]
  simp [Function.comp_def, turns, requests]

/-! ### Loopback -/

/-- The driven entries of a writer's capture. -/
theorem drivenBits_capture (n : Nat) (d : Level) (bs : List Level) :
    drivenBits (List.replicate n (.input, d) ++ bs.map fun b => (.output, b)) = bs := by
  simp [drivenBits, List.filterMap_append, List.filterMap_map]

/-- The low `t` bits of a word. -/
def lowBits (w : Word) (t : Nat) : List Level := (List.range t).map w.getLsbD

theorem lowBits_length (w : Word) (t : Nat) : (lowBits w t).length = t := by simp [lowBits]

/-- The low `t` bits, assembled, are the word masked to `t` bits. -/
theorem wordOfSamples_lowBits (w : Word) (t : Nat) : wordOfSamples (lowBits w t) = w &&& mask t := by
  refine BitVec.eq_of_getLsbD_eq fun i hi => ?_
  rw [wordOfSamples_getLsbD, BitVec.getLsbD_and, mask_getLsbD, lowBits, List.getD_eq_getElem?_getD]
  by_cases h : i < t <;> simp [h, hi]

/-- The bits `write` presents. -/
theorem drivenBits_write (w : Word) (t : BitVec 6) {s : State} (h : coherent s = true) :
    drivenBits (commandCapture (.write w t) s) = lowBits w t.toNat := by
  rw [commandCapture_write w t h, ← drivenBits_capture (turns s (.write w t)) s.dioO (lowBits w t.toNat), lowBits,
    List.map_map]
  rfl

/-- The bits `writeWithParity` presents. -/
theorem drivenBits_writeWithParity (w : Word) (t : BitVec 6) {s : State} (h : coherent s = true) :
    drivenBits (commandCapture (.writeWithParity w t) s) = lowBits w t.toNat ++ [writeParity w t.toNat] := by
  rw [commandCapture_writeWithParity w t h, ← drivenBits_capture (turns s (.writeWithParity w t)) s.dioO
    (lowBits w t.toNat ++ [writeParity w t.toNat]), lowBits, List.map_append, List.map_map]
  rfl

/-- An initialised link has every slot populated. -/
theorem dispatch_of_initialised {s : State} (h : initialised s = true) : s.dispatch = DispatchTable.full := eq_of_beq h

/-- Settles O27: the samples are the low bits presented. -/
theorem writeThenReadRoundTrip : Obligations.WriteThenReadRoundTrip := by
  intro w t s hinit hco hlow h1 h32
  have hd := dispatch_of_initialised hinit
  have hw := exec_of_admitted (i := .write w t) (s := s) ⟨hd ▸ rfl, h1, h32⟩
  rw [← mask]
  refine ⟨_, _, hw, exec_of_admitted (i := .read t) ⟨?_, h1, h32⟩, ?_⟩
  · exact hd ▸ rfl
  · rw [risingCapture_of_exec hw hlow, drivenBits_write w t hco, ← wordOfSamples_lowBits]
    have hs := samples_of_answers (afterCommand (.write w t) s) (lowBits w t.toNat) []
    rw [List.append_nil, lowBits_length] at hs
    exact congrArg wordOfSamples hs

/-- `readWithParity` fed with `t + 1` answers raises the flag exactly when the ones among them are odd in number. -/
theorem perr_of_answers (t : BitVec 6) (s : State) {answers : List Level} (hl : answers.length = t.toNat + 1)
    (h32 : t.toNat ≤ 32) :
    (afterReadWithParity t { s with target := answers }).perr = (answers.count true % 2 == 1) := by
  have hs := samples_of_answers s answers []
  rw [List.append_nil, hl] at hs
  have hflag : (afterReadWithParity t { s with target := answers }).perr =
      ((List.range (t.toNat + 1)).countP (sampleAt { s with target := answers }) % 2 == 1) :=
    parityMismatch_samples _ h32
  rw [hflag, ← count_true_samples, hs]

/-- The low bits and their parity bit hold an even number of ones. -/
theorem count_lowBits_parity (w : Word) {t : Nat} (h32 : t ≤ 32) :
    (lowBits w t ++ [writeParity w t]).count true % 2 = 0 := by
  have heven := count_add_writeParity_even w h32
  have hp : [writeParity w t].count true = (writeParity w t).toNat := by cases writeParity w t <;> rfl
  rw [List.count_append, hp, lowBits, List.count_eq_countP, List.countP_map]
  simpa [Function.comp_def] using heven

/-- Inverting one bit changes the parity of the number of ones. -/
theorem count_set_not {bs : List Level} {k : Nat} (hk : k < bs.length) (h : bs.count true % 2 = 0) :
    (bs.set k (!bs.getD k false)).count true % 2 = 1 := by
  have hpos : bs[k] = true → 0 < bs.count true := fun hb => List.count_pos_iff.2 (hb ▸ List.getElem_mem hk)
  rw [List.count_set hk, List.getD_eq_getElem _ _ hk]
  cases hb : bs[k]
  · simp
    omega
  · have := hpos hb
    simp
    omega

/-- Settles O28: the presented bits hold an even number of ones, and one inversion makes it odd. -/
theorem parityRoundTripDetectsOneError : Obligations.ParityRoundTripDetectsOneError := by
  intro w t s hinit hco hlow h1 h32
  have hd := dispatch_of_initialised hinit
  have hw := exec_of_admitted (i := .writeWithParity w t) (s := s) ⟨hd ▸ rfl, h1, h32⟩
  refine ⟨_, hw, ?_⟩
  rw [risingCapture_of_exec hw hlow, drivenBits_writeWithParity w t hco, ← mask]
  have hl : (lowBits w t.toNat ++ [writeParity w t.toNat]).length = t.toNat + 1 := by simp [lowBits_length]
  have hread (answers : List Level) := exec_readWithParity_of_legal (t := t)
    (s := { afterCommand (.writeWithParity w t) s with target := answers }) (hd ▸ rfl) h1 h32
  refine ⟨hl, ⟨_, hread _, ?_, ?_⟩, fun k hk => ⟨_, hread _, ?_⟩⟩
  · rw [← wordOfSamples_lowBits]
    have hs := samples_of_answers (afterCommand (.writeWithParity w t) s) (lowBits w t.toNat) [writeParity w t.toNat]
    rw [lowBits_length] at hs
    exact congrArg wordOfSamples hs
  · rw [perr_of_answers t _ hl h32, count_lowBits_parity w h32]
    rfl
  · rw [perr_of_answers t _ (by rw [List.length_set, hl]) h32, count_set_not (by omega) (count_lowBits_parity w h32)]
    rfl

end Sys2Proof.Machine
end

section
/-! The down-counter behind a wait (spec/43_timing.md R151). -/

namespace Sys2Proof.Machine

/-- The cycles an engine still needs: the rest of the unit begun and the units after it. -/
def cyclesLeft (l : Config.Link) (e : DelayEngine) : Nat := e.count.toNat * l.delayUnitCycles - e.spent

/-- The engine is inside a unit. -/
def InUnit (l : Config.Link) (e : DelayEngine) : Prop := e.spent < l.delayUnitCycles

/-- Inside a unit the engine is done exactly when no cycle is left. -/
theorem delayDone_iff {l : Config.Link} {e : DelayEngine} (h : InUnit l e) : delayDone e = true ↔ cyclesLeft l e = 0 := by
  unfold InUnit at h
  rw [delayDone, beq_iff_eq, cyclesLeft, BitVec.toNat_eq]
  cases e.count.toNat with
  | zero => simp
  | succ n =>
    have hunit : (n + 1) * l.delayUnitCycles = n * l.delayUnitCycles + l.delayUnitCycles := Nat.succ_mul ..
    simp
    omega

/-- One cycle uses up one of the cycles left. -/
theorem cyclesLeft_delayTick {l : Config.Link} {e : DelayEngine} (h : InUnit l e) :
    InUnit l (delayTick l e) ∧ cyclesLeft l (delayTick l e) = cyclesLeft l e - 1 := by
  unfold delayTick
  split_ifs with hdone hmore
  · have h0 := (delayDone_iff h).1 hdone
    exact ⟨h, by omega⟩
  · exact ⟨hmore, (Nat.sub_sub ..).symm⟩
  · unfold InUnit at h
    refine ⟨Nat.lt_of_le_of_lt (Nat.zero_le _) h, ?_⟩
    have hne : e.count ≠ 0#32 := fun hz => hdone (beq_iff_eq.2 hz)
    have hpos : 1 ≤ e.count.toNat := Nat.one_le_iff_ne_zero.2 fun hz => hne (BitVec.eq_of_toNat_eq hz)
    have hsub : (e.count - 1).toNat = e.count.toNat - 1 := BitVec.toNat_sub_of_le (BitVec.le_def.2 hpos)
    have hunit : e.count.toNat * l.delayUnitCycles = (e.count.toNat - 1) * l.delayUnitCycles + l.delayUnitCycles := by
      rw [← Nat.succ_mul, Nat.succ_eq_add_one, Nat.sub_add_cancel hpos]
    simp only [cyclesLeft, hsub, hunit]
    omega

/-- After `k` cycles `k` fewer are left. -/
theorem cyclesLeft_delayTicks {l : Config.Link} (k : Nat) {e : DelayEngine} (h : InUnit l e) :
    InUnit l (delayTicks l k e) ∧ cyclesLeft l (delayTicks l k e) = cyclesLeft l e - k := by
  induction k generalizing e with
  | zero => exact ⟨h, rfl⟩
  | succ k ih =>
    obtain ⟨hin, hleft⟩ := cyclesLeft_delayTick h
    obtain ⟨hin', hleft'⟩ := ih hin
    exact ⟨hin', by rw [delayTicks, hleft', hleft]; omega⟩

/-- Settles O37: a loaded engine needs `n` units, and is done when none of their cycles is left. -/
theorem delayEngineCountsUnits : Obligations.DelayEngineCountsUnits := by
  intro l k n hl
  obtain ⟨hin, hleft⟩ := cyclesLeft_delayTicks k (show InUnit l (delayLoad n) from hl)
  rw [delayDone_iff hin, hleft, Nat.sub_eq_zero_iff_le]
  rfl

end Sys2Proof.Machine
end

section
/-! The sequencer runs the operation rules (spec/45_microsequencer.md R183 to R187): segment by segment, with the number of
phase steps of each, which is the number of its events. -/

namespace Sys2Proof.Machine

open Sys2Proof.Safety

/-! ### The phase is read by the sequencer alone -/

section Goto

variable (p q : Phase) (s : State)

@[simp] theorem goto_phase : (goto p s).phase = p := rfl
@[simp] theorem goto_link : (goto p s).link = s.link := rfl
@[simp] theorem goto_timing : (goto p s).timing = s.timing := rfl
@[simp] theorem goto_op : (goto p s).op = s.op := rfl
@[simp] theorem goto_dir : (goto p s).dir = s.dir := rfl
@[simp] theorem goto_par : (goto p s).par = s.par := rfl
@[simp] theorem goto_goto : goto p (goto q s) = goto p s := rfl
@[simp] theorem complete_goto : complete (goto p s) = complete s := rfl
@[simp] theorem moreTicks_goto : moreTicks (goto p s) = moreTicks s := rfl
@[simp] theorem pinWriteClk_goto (l : Level) : pinWriteClk l (goto p s) = goto p (pinWriteClk l s) := rfl
@[simp] theorem pinWriteDio_goto (v : Level) : pinWriteDio v (goto p s) = goto p (pinWriteDio v s) := rfl
@[simp] theorem pinMode_goto (m : PinMode) : pinMode m (goto p s) = goto p (pinMode m s) := rfl
@[simp] theorem driveBit_goto : driveBit (goto p s) = goto p (driveBit s) := rfl
@[simp] theorem shiftOut_goto : shiftOut (goto p s) = goto p (shiftOut s) := rfl
@[simp] theorem nextBit_goto : nextBit (goto p s) = goto p (nextBit s) := rfl
@[simp] theorem accumulate_goto : accumulate (goto p s) = goto p (accumulate s) := by
  rw [accumulate_eq, accumulate_eq]
  rfl
@[simp] theorem wait_goto (n : DelayCount) : wait n (goto p s) = goto p (wait n s) := by
  rw [wait_eq, wait_eq]
  rfl
@[simp] theorem sampleToSmp_goto : sampleToSmp (goto p s) = goto p (sampleToSmp s) := by
  rw [sampleToSmp_eq, sampleToSmp_eq]
  rfl
@[simp] theorem sampleToPar_goto : sampleToPar (goto p s) = goto p (sampleToPar s) := by
  rw [sampleToPar_eq, sampleToPar_eq]
  rfl

end Goto

@[simp] theorem sampleToSmp_link (s : State) : (sampleToSmp s).link = s.link := by rw [sampleToSmp_eq]
@[simp] theorem sampleToPar_link (s : State) : (sampleToPar s).link = s.link := by rw [sampleToPar_eq]
@[simp] theorem accumulate_link (s : State) : (accumulate s).link = s.link := by rw [accumulate_eq]
@[simp] theorem wait_link (n : DelayCount) (s : State) : (wait n s).link = s.link := by rw [wait_eq]
@[simp] theorem wait_op (n : DelayCount) (s : State) : (wait n s).op = s.op := by rw [wait_eq]
@[simp] theorem moreTicks_wait (n : DelayCount) (s : State) : moreTicks (wait n s) = moreTicks s := by
  rw [wait_eq]
  rfl
@[simp] theorem moreTicks_pinWriteClk (l : Level) (s : State) : moreTicks (pinWriteClk l s) = moreTicks s := rfl
@[simp] theorem driveBit_ticks (s : State) : (driveBit s).ticks = s.ticks := rfl
@[simp] theorem driveBit_link (s : State) : (driveBit s).link = s.link := rfl

/-- The end of `read`: the result register, and completion. -/
def finishRead (s : State) : State := complete { s with rdata := s.shift }

/-- The end of `readWithParity`: the result registers, and completion. -/
def finishReadPar (s : State) : State :=
  complete { s with rdata := s.shift, perr := parityMismatch s.shift s.par }

/-- The record of a direction. -/
def setDir (d : Direction) (s : State) : State := { s with dir := d }

@[simp] theorem finishRead_goto (p : Phase) (s : State) : finishRead (goto p s) = finishRead s := rfl
@[simp] theorem finishReadPar_goto (p : Phase) (s : State) : finishReadPar (goto p s) = finishReadPar s := rfl
@[simp] theorem setDir_goto (d : Direction) (p : Phase) (s : State) : setDir d (goto p s) = goto p (setDir d s) := rfl

/-- The check of the direction. -/
theorem phaseStep_goto_taCheck (s : State) :
    phaseStep (goto .taCheck s) =
      if requestedDir s.op = s.dir then goto (firstPhase s.op) s
      else if requestedDir s.op = .float then goto .taMi s else goto .taSet s := phaseStep_taCheck rfl

/-- The last phase of a tick of `read`. -/
theorem phaseStep_goto_rdClr (s : State) :
    phaseStep (goto .rdClr s) =
      if moreTicks (nextBit (pinWriteClk false s)) then goto .rdSmp (nextBit (pinWriteClk false s))
      else finishRead (nextBit (pinWriteClk false s)) := phaseStep_rdClr rfl

/-- The last phase of `readWithParity`. -/
theorem phaseStep_goto_rpPend (s : State) : phaseStep (goto .rpPend s) = finishReadPar (pinWriteClk false s) :=
  phaseStep_rpPend rfl

/-- The last phase of the pulse. -/
theorem phaseStep_goto_taClr (s : State) :
    phaseStep (goto .taClr s) =
      if requestedDir s.op = .drive then goto .taMo (pinWriteClk false s)
      else goto (firstPhase s.op) (setDir .float (pinWriteClk false s)) := phaseStep_taClr rfl

/-- The last phase of a turnaround towards `Drive`. -/
theorem phaseStep_goto_taMo (s : State) :
    phaseStep (goto .taMo s) = goto (firstPhase s.op) (setDir .drive (pinMode .output s)) := phaseStep_taMo rfl

/-! ### The two variants -/

theorem wait_of_fixed {s : State} (h : s.link.fixedClkWidth = true) (n : DelayCount) : wait n s = s := if_pos h

theorem byWidth_of_fixed {s : State} (h : s.link.fixedClkWidth = true) (p q : Phase) : byWidth s p q = p := if_pos h

theorem byWidth_of_variable {s : State} (h : s.link.fixedClkWidth = false) (p q : Phase) : byWidth s p q = q := by
  simp [byWidth, h]

theorem waitEvents_of_fixed {l : Config.Link} (h : l.fixedClkWidth = true) : waitEvents l = 0 := if_pos h

theorem waitEvents_of_variable {l : Config.Link} (h : l.fixedClkWidth = false) : waitEvents l = 1 := by
  simp [waitEvents, h]

/-- A phase step of a run. -/
theorem runToIdle_goto {p : Phase} (hp : p ≠ .idle) (n : Nat) (s : State) :
    runToIdle (n + 1) (goto p s) = runToIdle n (phaseStep (goto p s)) := runToIdle_succ n hp

/-- Two runs, one after the other. -/
theorem runToIdle_trans {m n : Nat} {s u v : State} (h : runToIdle m s = u) (h' : runToIdle n u = v) :
    runToIdle (m + n) s = v := by
  rw [runToIdle_add, h, h']

/-! ### Ticks, in phase steps

Each segment is run phase by phase on either variant: the equations of its phases, with the phase moved outwards. -/

/-- One tick of `read`. -/
theorem runToIdle_readTick (s : State) :
    runToIdle (3 + waitEvents s.link) (goto .rdSmp s) =
      if moreTicks (readTick s) then goto .rdSmp (readTick s) else finishRead (readTick s) := by
  cases hw : s.link.fixedClkWidth
  · simp [waitEvents_of_variable hw, runToIdle, phaseStep_rdSmp (goto_phase ..), phaseStep_rdSet (goto_phase ..),
      phaseStep_rdWait (goto_phase ..), phaseStep_goto_rdClr, byWidth_of_variable, hw]
    rfl
  · simp [waitEvents_of_fixed hw, runToIdle, phaseStep_rdSmp (goto_phase ..), phaseStep_rdSet (goto_phase ..),
      phaseStep_goto_rdClr, byWidth_of_fixed, hw, readTick, wait_of_fixed]

/-- One data tick of `readWithParity`. -/
theorem runToIdle_readParTick (s : State) :
    runToIdle (3 + waitEvents s.link) (goto .rpClr s) =
      goto (if moreTicks (readParTick s) then .rpClr else .rpPclr) (readParTick s) := by
  cases hw : s.link.fixedClkWidth
  · simp [waitEvents_of_variable hw, runToIdle, phaseStep_rpClr (goto_phase ..), phaseStep_rpSmp (goto_phase ..),
      phaseStep_rpSet (goto_phase ..), phaseStep_rpWait (goto_phase ..), byWidth_of_variable, hw, afterReadParTick,
      readParTick]
    rfl
  · simp [waitEvents_of_fixed hw, runToIdle, phaseStep_rpClr (goto_phase ..), phaseStep_rpSmp (goto_phase ..),
      phaseStep_rpSet (goto_phase ..), byWidth_of_fixed, hw, afterReadParTick, readParTick, wait_of_fixed]

/-- One tick of `write`. -/
theorem runToIdle_writeTick (s : State) :
    runToIdle (3 + waitEvents s.link) (goto .wrClr s) =
      goto (if moreTicks (writeTick s) then .wrClr else .wrEnd) (writeTick s) := by
  cases hw : s.link.fixedClkWidth
  · simp [waitEvents_of_variable hw, runToIdle, phaseStep_wrClr (goto_phase ..), phaseStep_wrDrv (goto_phase ..),
      phaseStep_wrSet (goto_phase ..), phaseStep_wrWait (goto_phase ..), byWidth_of_variable, hw, afterWriteTick,
      writeTick]
    rfl
  · simp [waitEvents_of_fixed hw, runToIdle, phaseStep_wrClr (goto_phase ..), phaseStep_wrDrv (goto_phase ..),
      phaseStep_wrSet (goto_phase ..), byWidth_of_fixed, hw, afterWriteTick, writeTick, wait_of_fixed]
    rfl

/-- One data tick of `writeWithParity`. -/
theorem runToIdle_writeParTick (s : State) :
    runToIdle (3 + waitEvents s.link) (goto .wpSet s) =
      goto (if moreTicks (writeParTick s) then .wpSet else .wpPdrv) (writeParTick s) := by
  cases hw : s.link.fixedClkWidth
  · simp [waitEvents_of_variable hw, runToIdle, phaseStep_wpSet (goto_phase ..), phaseStep_wpDrv (goto_phase ..),
      phaseStep_wpWait (goto_phase ..), phaseStep_wpClr (goto_phase ..), byWidth_of_variable, hw, writeParTick]
  · simp [waitEvents_of_fixed hw, runToIdle, phaseStep_wpSet (goto_phase ..), phaseStep_wpDrv (goto_phase ..),
      phaseStep_wpClr (goto_phase ..), byWidth_of_fixed, hw, writeParTick, wait_of_fixed]
    rfl

/-! ### Loops, in phase steps -/

/-- What a tick does to the registers that steer the sequencer: it counts, and leaves the number of ticks and the link. -/
structure CountsOne (tick : State → State) : Prop where
  bitidx : ∀ s, (tick s).bitidx = s.bitidx + 1
  ticks : ∀ s, (tick s).ticks = s.ticks
  link : ∀ s, (tick s).link = s.link

theorem countsOne_readTick : CountsOne readTick :=
  ⟨fun s => by rw [readTick_eq], fun s => by rw [readTick_eq], fun s => by rw [readTick_eq]⟩

theorem countsOne_readParTick : CountsOne readParTick :=
  ⟨fun s => by rw [readParTick_eq], fun s => by rw [readParTick_eq], fun s => by rw [readParTick_eq]⟩

theorem countsOne_writeTick : CountsOne writeTick :=
  ⟨fun s => by rw [writeTick_eq], fun s => by rw [writeTick_eq], fun s => by rw [writeTick_eq]⟩

theorem countsOne_writeParTick : CountsOne writeParTick :=
  ⟨fun s => by rw [writeParTick_eq], fun s => by rw [writeParTick_eq], fun s => by rw [writeParTick_eq]⟩

/-- With a tick to come, the next one counts without overflow. -/
theorem CountsOne.bitidx_toNat {tick : State → State} (hc : CountsOne tick) {s : State}
    (h : s.bitidx.toNat < s.ticks.toNat) : (tick s).bitidx.toNat = s.bitidx.toNat + 1 := by
  have hlt := s.ticks.isLt
  rw [hc.bitidx, BitVec.toNat_add]
  exact Nat.mod_eq_of_lt (by simp; omega)

/-- A loop with `m + 1` ticks to come: the sequencer, `n` phase steps a tick, runs them all and goes where it goes after
the last. -/
theorem runToIdle_loop {tick finish : State → State} {again : Phase} {l : Config.Link} {n : Nat} (hc : CountsOne tick)
    (htick : ∀ s : State, s.link = l → runToIdle n (goto again s) =
      if moreTicks (tick s) then goto again (tick s) else finish (tick s))
    (m : Nat) {s : State} (hl : s.link = l) (hm : s.bitidx.toNat + (m + 1) = s.ticks.toNat) :
    runToIdle ((m + 1) * n) (goto again s) = finish (times tick (m + 1) s) := by
  induction m generalizing s with
  | zero =>
    have hlast : ¬ moreTicks (tick s) = true := by
      rw [moreTicks_iff, hc.bitidx_toNat (by omega), hc.ticks]
      omega
    rw [Nat.zero_add, Nat.one_mul, htick s hl, if_neg hlast]
    rfl
  | succ m ih =>
    have hmore : moreTicks (tick s) = true := by
      rw [moreTicks_iff, hc.bitidx_toNat (by omega), hc.ticks]
      omega
    rw [Nat.succ_mul, Nat.add_comm, runToIdle_add, htick s hl, if_pos hmore]
    exact ih ((hc.link s).trans hl) (by rw [hc.bitidx_toNat (by omega), hc.ticks]; omega)

/-- The whole loop of a command of `t` ticks on link `l`, from its beginning. -/
theorem runToIdle_whole_loop {tick finish : State → State} {again : Phase} (hc : CountsOne tick)
    (htick : ∀ s : State, runToIdle (3 + waitEvents s.link) (goto again s) =
      if moreTicks (tick s) then goto again (tick s) else finish (tick s))
    {s : State} {t : BitVec 6} {l : Config.Link} (hb : s.bitidx = 0) (ht : s.ticks = t) (hl : s.link = l)
    (h1 : 1 ≤ t.toNat) :
    runToIdle (t.toNat * (3 + waitEvents l)) (goto again s) = finish (times tick t.toNat s) := by
  obtain ⟨m, hm⟩ := Nat.exists_eq_add_of_le' h1
  have hloop := runToIdle_loop hc (l := l) (fun u hu => hu ▸ htick u) m hl (by rw [hb, ht, hm]; simp)
  rwa [← hm] at hloop

theorem times_link {tick : State → State} (hc : CountsOne tick) (n : Nat) (s : State) :
    (times tick n s).link = s.link :=
  times_induct (fun u => u.link = s.link) tick (fun u hu => (hc.link u).trans hu) n s rfl

/-! ### Turnaround, first phases and ends, in phase steps -/

/-- The pulse, and where the sequencer goes after it. -/
theorem runToIdle_pulse (s : State) :
    runToIdle 3 (goto .taSet s) =
      if requestedDir s.op = .drive then goto .taMo (turnaroundPulse s)
      else goto (firstPhase s.op) (setDir .float (turnaroundPulse s)) := by
  cases hw : s.link.fixedClkWidth
  · simp [runToIdle, phaseStep_taSet (goto_phase ..), phaseStep_taWait (goto_phase ..), phaseStep_goto_taClr,
      byWidth_of_variable, hw, turnaroundPulse, raiseClkTwiceIfFixed]
  · simp [runToIdle, phaseStep_taSet (goto_phase ..), phaseStep_taSet2 (goto_phase ..), phaseStep_goto_taClr,
      byWidth_of_fixed, hw, turnaroundPulse, raiseClkTwiceIfFixed, wait_of_fixed]
    rfl

theorem turnaround_to_float {s : State} (h : s.dir = .drive) :
    turnaround .float s = setDir .float (turnaroundPulse (pinMode .input s)) := if_neg (by simp [h])

theorem turnaround_to_drive {s : State} (h : s.dir = .float) :
    turnaround .drive s = setDir .drive (pinMode .output (turnaroundPulse s)) := if_neg (by simp [h])

theorem turnaroundPulse_op (s : State) : (turnaroundPulse s).op = s.op := by
  simp [turnaroundPulse, raiseClkTwiceIfFixed_eq]

/-- The turnaround: the check of the direction, and four more phase steps if it changes. -/
theorem runToIdle_turnaround (s : State) :
    runToIdle (1 + 4 * if requestedDir s.op = s.dir then 0 else 1) (goto .taCheck s) =
      goto (firstPhase s.op) (turnaround (requestedDir s.op) s) := by
  rw [Nat.add_comm, runToIdle_goto (p := .taCheck) nofun, phaseStep_goto_taCheck]
  rcases direction_cases (requestedDir s.op) s with h | ⟨hr, h⟩ | ⟨hr, h⟩
  · rw [if_pos h, if_pos h, turnaround_of_recorded h]
    rfl
  · have hmi : runToIdle 4 (goto .taMi s) = runToIdle 3 (goto .taSet (pinMode .input s)) := by
      rw [runToIdle_goto (p := .taMi) nofun, phaseStep_taMi rfl, pinMode_goto, goto_goto]
    simp [hr, h, hmi, runToIdle_pulse, turnaround_to_float h]
  · have hmo : runToIdle 1 (goto .taMo (turnaroundPulse s)) =
        goto (firstPhase s.op) (setDir .drive (pinMode .output (turnaroundPulse s))) := by
      rw [runToIdle_goto (p := .taMo) nofun, phaseStep_goto_taMo, turnaroundPulse_op]
      rfl
    simp [hr, h, runToIdle_add 3 1, runToIdle_pulse, hmo, turnaround_to_drive h]

/-- The parity cycle of `readWithParity`, and completion. -/
theorem runToIdle_readParEnd (s : State) :
    runToIdle (4 + waitEvents s.link) (goto .rpPclr s) = finishReadPar (readParEnd s) := by
  cases hw : s.link.fixedClkWidth
  · simp [waitEvents_of_variable hw, runToIdle, phaseStep_rpPclr (goto_phase ..), phaseStep_rpPsmp (goto_phase ..),
      phaseStep_rpPset (goto_phase ..), phaseStep_rpPwait (goto_phase ..), phaseStep_goto_rpPend, byWidth_of_variable, hw,
      readParEnd]
  · simp [waitEvents_of_fixed hw, runToIdle, phaseStep_rpPclr (goto_phase ..), phaseStep_rpPsmp (goto_phase ..),
      phaseStep_rpPset (goto_phase ..), phaseStep_goto_rpPend, byWidth_of_fixed, hw, readParEnd, wait_of_fixed]

/-- The parity cycle of `writeWithParity`, and completion. -/
theorem runToIdle_writeParEnd (s : State) :
    runToIdle (5 + waitEvents s.link) (goto .wpPdrv s) = complete (writeParEnd s) := by
  cases hw : s.link.fixedClkWidth
  · simp [waitEvents_of_variable hw, runToIdle, phaseStep_wpPdrv (goto_phase ..), phaseStep_wpPclr (goto_phase ..),
      phaseStep_wpPwait1 (goto_phase ..), phaseStep_wpPset (goto_phase ..), phaseStep_wpPwait2 (goto_phase ..),
      phaseStep_wpPend (goto_phase ..), byWidth_of_variable, hw, writeParEnd, raiseClkTwiceIfFixed]
  · simp [waitEvents_of_fixed hw, runToIdle, phaseStep_wpPdrv (goto_phase ..), phaseStep_wpPclr (goto_phase ..),
      phaseStep_wpPset (goto_phase ..), phaseStep_wpPset2 (goto_phase ..), phaseStep_wpPend (goto_phase ..),
      byWidth_of_fixed, hw, writeParEnd, raiseClkTwiceIfFixed, wait_of_fixed]

/-! ### Whole commands -/

section Turnaround

variable (d : Direction) (s : State)

@[simp] theorem turnaround_ticks : (turnaround d s).ticks = s.ticks := by rw [turnaround_fields]
@[simp] theorem turnaround_bitidx : (turnaround d s).bitidx = s.bitidx := by rw [turnaround_fields]
@[simp] theorem turnaround_link : (turnaround d s).link = s.link := by rw [turnaround_fields]

/-- The loop registers may be set before the turnaround, as at acceptance, or after it, as in the operation rules. -/
theorem turnaround_startLoop (w : Word) : turnaround d (startLoop w s) = startLoop w (turnaround d s) := by
  rw [turnaround_fields, turnaround_fields]
  rfl

end Turnaround

/-- From acceptance, with `o` in `OP`, to the first phase `p` of its operation. -/
theorem runToIdle_accepted {o : BitVec 3} {d : Direction} {p : Phase} (hd : requestedDir o = d) (hp : firstPhase o = p)
    (w : Word) {s : State} (ho : s.op = o) :
    runToIdle (1 + 4 * if d = s.dir then 0 else 1) (goto .taCheck (startLoop w s)) =
      goto p (startLoop w (turnaround d s)) := by
  subst ho hd hp
  rw [← turnaround_startLoop]
  exact runToIdle_turnaround (startLoop w s)

/-- What acceptance of `writeWithParity` loads: the operands, and the parity bit (R132). -/
def loadWithParity (w : Word) (t : BitVec 6) (s : State) : State :=
  { loadWord w (loadOperands 0b011#3 t s) with par := writeParity w t.toNat }

@[simp] theorem loadWithParity_dir (w : Word) (t : BitVec 6) (s : State) : (loadWithParity w t s).dir = s.dir := rfl
@[simp] theorem loadWithParity_ticks (w : Word) (t : BitVec 6) (s : State) : (loadWithParity w t s).ticks = t := rfl
@[simp] theorem loadWithParity_link (w : Word) (t : BitVec 6) (s : State) : (loadWithParity w t s).link = s.link := rfl

section Runs

variable {t : BitVec 6} (s : State)

/-- `read` from acceptance to the response. -/
theorem runToIdle_read (h1 : 1 ≤ t.toNat) :
    runToIdle ((commandEvents (.read t) s).length + 1) (goto .taCheck (startLoop 0#32 (loadOperands 0b000#3 t s))) =
      runRead t s := by
  have hlen : (commandEvents (.read t) s).length + 1 =
      (1 + 4 * if Direction.float = s.dir then 0 else 1) + t.toNat * (3 + waitEvents s.link) := by
    rw [commandEvents, List.length_append, turnaroundShape_length, readShape_length, samples_length]
    omega
  have hturn := runToIdle_accepted (o := 0b000#3) (d := .float) (p := .rdSmp) (by decide) (by decide) 0#32
    (loadOperands_op s 0b000#3 t)
  have hloop := runToIdle_whole_loop (finish := finishRead) countsOne_readTick runToIdle_readTick
    (s := startLoop 0#32 (turnaround .float (loadOperands 0b000#3 t s))) (t := t) (l := s.link)
    rfl (by simp) (by simp) h1
  rw [loadOperands_dir] at hturn
  rw [hlen, runToIdle_trans hturn hloop]
  rfl

/-- `readWithParity` from acceptance to the response. -/
theorem runToIdle_readWithParity (h1 : 1 ≤ t.toNat) :
    runToIdle ((commandEvents (.readWithParity t) s).length + 1)
      (goto .taCheck (startLoop 0#32 (loadOperands 0b001#3 t s))) = runReadWithParity t s := by
  have hlen : (commandEvents (.readWithParity t) s).length + 1 =
      (1 + 4 * if Direction.float = s.dir then 0 else 1) + t.toNat * (3 + waitEvents s.link) +
        (4 + waitEvents s.link) := by
    rw [commandEvents, List.length_append, turnaroundShape_length, readParShape_length, samples_length]
    omega
  have hturn := runToIdle_accepted (o := 0b001#3) (d := .float) (p := .rpClr) (by decide) (by decide) 0#32
    (loadOperands_op s 0b001#3 t)
  have hloop := runToIdle_whole_loop (finish := goto .rpPclr) countsOne_readParTick
    (fun u => (runToIdle_readParTick u).trans (by split <;> rfl))
    (s := startLoop 0#32 (turnaround .float (loadOperands 0b001#3 t s))) (t := t) (l := s.link)
    rfl (by simp) (by simp) h1
  have hend := runToIdle_readParEnd
    (times readParTick t.toNat (startLoop 0#32 (turnaround .float (loadOperands 0b001#3 t s))))
  rw [times_link countsOne_readParTick, startLoop_link, turnaround_link, loadOperands_link] at hend
  rw [loadOperands_dir] at hturn
  rw [hlen, runToIdle_trans (runToIdle_trans hturn hloop) hend]
  rfl

/-- `write` from acceptance to the response. -/
theorem runToIdle_write (w : Word) (h1 : 1 ≤ t.toNat) :
    runToIdle ((commandEvents (.write w t) s).length + 1)
      (goto .taCheck (startLoop w (loadWord w (loadOperands 0b010#3 t s)))) = runWrite w t s := by
  have hlen : (commandEvents (.write w t) s).length + 1 =
      (1 + 4 * if Direction.drive = s.dir then 0 else 1) + 1 + t.toNat * (3 + waitEvents s.link) + 1 := by
    rw [commandEvents, List.length_append, turnaroundShape_length, writeShape_length]
    omega
  have hturn := runToIdle_accepted (o := 0b010#3) (d := .drive) (p := .wrPre) (by decide) (by decide) w
    (s := loadWord w (loadOperands 0b010#3 t s)) rfl
  have hpre (u : State) : runToIdle 1 (goto .wrPre u) = goto .wrClr (driveBit u) :=
    (runToIdle_goto (p := .wrPre) nofun 0 u).trans (phaseStep_wrPre (s := goto .wrPre u) rfl)
  have hloop := runToIdle_whole_loop (finish := goto .wrEnd) countsOne_writeTick
    (fun u => (runToIdle_writeTick u).trans (by split <;> rfl))
    (s := driveBit (startLoop w (turnaround .drive (loadWord w (loadOperands 0b010#3 t s))))) (t := t) (l := s.link)
    rfl (by simp) (by simp) h1
  have hend (u : State) : runToIdle 1 (goto .wrEnd u) = complete (pinWriteClk false u) :=
    (runToIdle_goto (p := .wrEnd) nofun 0 u).trans (phaseStep_wrEnd (s := goto .wrEnd u) rfl)
  rw [loadWord_dir, loadOperands_dir] at hturn
  rw [hlen, runToIdle_trans (runToIdle_trans (runToIdle_trans hturn (hpre _)) hloop) (hend _)]
  rfl

/-- `writeWithParity` from acceptance to the response. -/
theorem runToIdle_writeWithParity (w : Word) (h1 : 1 ≤ t.toNat) :
    runToIdle ((commandEvents (.writeWithParity w t) s).length + 1)
      (goto .taCheck (startLoop w (loadWithParity w t s))) = runWriteWithParity w t s := by
  have hlen : (commandEvents (.writeWithParity w t) s).length + 1 =
      (1 + 4 * if Direction.drive = s.dir then 0 else 1) + 1 + t.toNat * (3 + waitEvents s.link) +
        (5 + waitEvents s.link) := by
    rw [commandEvents, List.length_append, turnaroundShape_length, writeParShape_length]
    omega
  have hturn := runToIdle_accepted (o := 0b011#3) (d := .drive) (p := .wpPre) (by decide) (by decide) w
    (s := loadWithParity w t s) rfl
  have hpre (u : State) : runToIdle 1 (goto .wpPre u) = goto .wpSet (driveBit u) :=
    (runToIdle_goto (p := .wpPre) nofun 0 u).trans (phaseStep_wpPre (s := goto .wpPre u) rfl)
  have hloop := runToIdle_whole_loop (finish := goto .wpPdrv) countsOne_writeParTick
    (fun u => (runToIdle_writeParTick u).trans (by split <;> rfl))
    (s := driveBit (startLoop w (turnaround .drive (loadWithParity w t s)))) (t := t) (l := s.link)
    rfl (by simp) (by simp) h1
  have hend := runToIdle_writeParEnd
    (times writeParTick t.toNat (driveBit (startLoop w (turnaround .drive (loadWithParity w t s)))))
  rw [times_link countsOne_writeParTick, driveBit_link, startLoop_link, turnaround_link, loadWithParity_link] at hend
  rw [loadWithParity_dir] at hturn
  rw [hlen, runToIdle_trans (runToIdle_trans (runToIdle_trans hturn (hpre _)) hloop) hend]
  rfl

end Runs

/-- Where a command is admitted, the sequencer accepts it and runs it in one phase step more than it has events. -/
theorem sequencer_runs {i : Instr} {s : State} (h : admitted s i) :
    ∃ v, acceptStep i s = .next v ∧ runToIdle ((commandEvents i s).length + 1) v = afterCommand i s := by
  cases i with
  | read t =>
    obtain ⟨hs, h1, h32⟩ := h
    exact ⟨_, by rw [acceptStep]; exact admitTransport_of_legal hs h1 h32,
      (runToIdle_read s h1).trans (runRead_eq t s h1 h32)⟩
  | readWithParity t =>
    obtain ⟨hs, h1, h32⟩ := h
    exact ⟨_, by rw [acceptStep]; exact admitTransport_of_legal hs h1 h32,
      (runToIdle_readWithParity s h1).trans (runReadWithParity_eq t s h1 h32)⟩
  | write w t =>
    obtain ⟨hs, h1, h32⟩ := h
    exact ⟨_, by rw [acceptStep]; exact admitTransport_of_legal hs h1 h32,
      (runToIdle_write s w h1).trans (runWrite_eq w t s h1)⟩
  | writeWithParity w t =>
    obtain ⟨hs, h1, h32⟩ := h
    exact ⟨_, by rw [acceptStep]; exact admitTransport_of_legal hs h1 h32,
      (runToIdle_writeWithParity s w h1).trans (runWriteWithParity_eq w t s)⟩
  | init => exact ⟨_, rfl, runToIdle_of_idle _ rfl⟩
  | configureTiming p => exact ⟨_, admitTiming_of_variable h, runToIdle_of_idle _ rfl⟩

/-- The acceptance checks do not ask how the command is then run. -/
theorem acceptStep_refuses {i : Instr} {s : State} {r : Refusal} (h : exec i s = .refused r) :
    acceptStep i s = .refused r := by
  cases i with
  | read t =>
    rw [acceptStep]
    exact admitTransport_eq_refused.2 (admitTransport_eq_refused (k := 0#2).1 h)
  | readWithParity t =>
    rw [acceptStep]
    exact admitTransport_eq_refused.2 (admitTransport_eq_refused (k := 1#2).1 h)
  | write w t =>
    rw [acceptStep]
    exact admitTransport_eq_refused.2 (admitTransport_eq_refused (k := 2#2).1 h)
  | writeWithParity w t =>
    rw [acceptStep]
    exact admitTransport_eq_refused.2 (admitTransport_eq_refused (k := 3#2).1 h)
  | init => exact h
  | configureTiming p => exact h

/-- Settles O41: a command's phase steps are its events and the check of the direction, at most 140, and an idle state
stays. -/
theorem sequencerRunsTheOperationRules : Obligations.SequencerRunsTheOperationRules := by
  intro i s _
  refine ⟨fun u h => ?_, fun r => acceptStep_refuses⟩
  obtain ⟨hadm, rfl⟩ := exec_eq_next.1 h
  obtain ⟨v, hv, hrun⟩ := sequencer_runs hadm
  refine ⟨v, hv, ?_⟩
  obtain ⟨k, hk⟩ : ∃ k, 140 = (commandEvents i s).length + 1 + k :=
    Nat.exists_eq_add_of_le (Nat.succ_le_succ (commandEvents_length i s ▸ eventCount_le hadm))
  rw [hk]
  exact runToIdle_trans hrun (runToIdle_of_idle k (afterCommand_phase i s))

end Sys2Proof.Machine
end
